-- ==== Sys2Proof/Word.lean ====
section
/-! DEFINITION. The widths of the Wendza 62: words, addresses, master tags, indices, the part's time. -/

namespace Sys2Proof

/-- A word is 32 bits (00_scope section 5). -/
abbrev Word := BitVec 32

/-- A byte of job memory (R171). -/
abbrev Byte := BitVec 8

/-- Addresses are 24-bit byte addresses (00_scope section 5, R137). -/
abbrev Addr := BitVec 24

/-- The 3-bit identity carried by every cell bus transaction (R137). -/
abbrev MasterTag := BitVec 3

/-- The part's time in milliseconds, wrapping after 2^32 - 1 (R155). -/
abbrev Time := BitVec 32

/-- Gantry 0 is the western gantry, gantry 1 the eastern one. -/
abbrev Gantry := Fin 2

/-- A saw station index, 0 to 5 (R95). -/
abbrev StationId := Fin 6

/-- A data word with its parity bit as it stands on a port (R137). -/
structure PWord where
  data : Word
  par : Bool
  deriving DecidableEq, Repr

end Sys2Proof
end

