-- ==== Sys2Proof/Syntax.lean ====
section
/-! DEFINITION. The commands of the part: one constructor of Instr for each row of spec/opcode_table.json. -/

namespace Sys2Proof

/-- Whether a transaction reads or writes, with its burst (R137): a READ carries a burst length, a WRITE its data
words, each with its parity bit. -/
inductive TxnOp where
  | read (len : Nat)
  | write (words : List PWord)
  deriving DecidableEq, Repr

/-- A transaction presented at the upstream port (R137). The address-phase parity is given as whether it holds,
because the spec gives the burst length no bit pattern (log 13). -/
structure Txn where
  tag : MasterTag
  addrParityOk : Bool
  addr : Addr
  op : TxnOp
  deriving DecidableEq, Repr

/-- A control record less its command code (section 11.1): the operands, and the bits the part neither reads nor
stamps, which are posted as written (R182). The result field of `word2` is not examined (R156). -/
structure ControlRec where
  opA : BitVec 16
  opB : BitVec 24
  bGiven : Bool
  spare0 : BitVec 8
  spare1 : BitVec 7
  word2 : Word
  word3 : Word
  deriving DecidableEq, Repr

/-- A word that job memory returns otherwise than it holds it, at an index of the burst (log 5). -/
structure Upset where
  index : Fin 16
  word : PWord
  deriving DecidableEq, Repr

/-- Job memory's answer to an operation (R150). -/
inductive MemAnswer where
  | done (upsets : List Upset)
  | fault
  deriving DecidableEq, Repr

/-- The part's commands: transactions at the upstream port, answers of job memory, bounds that expire (the operand is
the microseconds elapsed on the bound's own clock), grants of the memory port, pins, filtered sensor changes,
timer expiries and the millisecond tick. -/
inductive Instr where
  | moveRead (tag : MasterTag) (addr : Addr)
  | judgeMove (a : MemAnswer)
  | latencyExpiry (us : Nat)
  | completionWrite (tag : MasterTag) (addr : Addr) (words : List PWord)
  | orderWrite (tag : MasterTag) (addr : Addr) (words : List PWord)
  | reportWrite (tag : MasterTag) (addr : Addr) (words : List PWord)
  | clearHalt (tag : MasterTag) (addr : Addr) (r : ControlRec)
  | cancelOrder (tag : MasterTag) (addr : Addr) (r : ControlRec)
  | unblockStation (tag : MasterTag) (addr : Addr) (r : ControlRec)
  | ackEvents (tag : MasterTag) (addr : Addr) (r : ControlRec)
  | resetFeed (tag : MasterTag) (addr : Addr) (r : ControlRec)
  | reloadSettings (tag : MasterTag) (addr : Addr) (r : ControlRec)
  | unknownCommand (tag : MasterTag) (addr : Addr) (code : BitVec 8) (r : ControlRec)
  | statusRead (tag : MasterTag) (addr : Addr) (len : Nat)
  | ownerWritePosted (tag : MasterTag) (addr : Addr) (words : List PWord)
  | forwardRaw (t : Txn)
  | heldMemoryAnswer (a : MemAnswer)
  | postedWriteAnswer (a : MemAnswer)
  | postedWriteTimeout (us : Nat)
  | portGrant
  | noticeWriteAnswer (a : MemAnswer)
  | eventWriteAnswer (a : MemAnswer)
  | recordWriteTimeout (us : Nat)
  | settingsBurst (a : MemAnswer)
  | settingsBurstTimeout (us : Nat)
  | resetAssert
  | resetRelease (base : BitVec 4) (lcTag : MasterTag)
  | vacRawChange (g : Gantry) (level : Bool)
  | vacFall (g : Gantry)
  | vacRise (g : Gantry)
  | presentRawChange (st : StationId) (level : Bool)
  | presentRise (st : StationId)
  | presentFall (st : StationId)
  | moveTimeout (g : Gantry)
  | landingTimeout (st : StationId)
  | guardExpiry (st : StationId)
  | partTimeTick
  deriving DecidableEq, Repr

end Sys2Proof
end

