-- ==== Sys2Proof/Decode.lean ====
section
/-! DEFINITION. No row of spec/opcode_table.json gives its command any bits, so no word spells a command (log 23). -/

namespace Sys2Proof

/-- The command a word spells by the table's bits: none, since no row of the table has bits. -/
def decodeTableWord (_nbits _w : Nat) : Option Instr := none

end Sys2Proof
end

