-- ==== Sys2Proof/Machine/Fields.lean ====
section
/-! DEFINITION. Bit fields of words, word parity, and elapsed time (chapter 11, R137, R155). -/

namespace Sys2Proof.Machine

/-- Bits lo to lo + n - 1 of a word as an unsigned number (chapter 11). -/
def field (w : Word) (lo n : Nat) : Nat := (w.toNat >>> lo) % 2 ^ n

/-- Bit lo of a word. -/
def bit (w : Word) (lo : Nat) : Bool := w.getLsbD lo

/-- The word with ones in bits lo to lo + n - 1. -/
def fieldMask (lo n : Nat) : Word := BitVec.ofNat 32 (2 ^ n - 1) <<< lo

/-- The word with bits lo to lo + n - 1 replaced by v; "A stamp changes only the bits of its own field" (R183). -/
def setField (w : Word) (lo n v : Nat) : Word :=
  (w &&& ~~~ fieldMask lo n) ||| ((BitVec.ofNat 32 v <<< lo) &&& fieldMask lo n)

/-- A word built from its fields, each (first bit, width, value); every other bit is 0 (R182). -/
def pack (fields : List (Nat × Nat × Nat)) : Word :=
  fields.foldl (fun w f => setField w f.1 f.2.1 f.2.2) 0

/-- The parity bit that gives a word and its bit an even number of ones (R137). -/
def parityBit (w : Word) : Bool := (List.range 32).foldl (fun p i => p ^^ w.getLsbD i) false

/-- A word with the parity bit the part generates (R137). -/
def PWord.good (w : Word) : PWord := ⟨w, parityBit w⟩

/-- The word and its parity bit hold an even number of ones (R137). -/
def parityOk (p : PWord) : Bool := p.par == parityBit p.data

/-- Word k of a record, 0 beyond its end. -/
def wordAt (ws : List Word) (k : Nat) : Word := ws.getD k 0

/-- A Bool as the number a single bit holds. -/
def bitNat (b : Bool) : Nat := if b then 1 else 0

/-- "A timer's elapsed time is the difference of two readings taken modulo 2^32" (R155). -/
def elapsed (now start : Time) : Nat := (now - start).toNat

end Sys2Proof.Machine
end

