-- ==== Sys2Proof/Config.lean ====
section
/-! DEFINITION. The part's fixed numbers, and the free values: what the spec leaves open although the
machine goes on. A free value has no body, so that nothing can be proved about it. -/

namespace Sys2Proof.Config

/-- The order list holds up to 32 entries (R74). -/
abbrev listCapacity : Nat := 32

/-- The record writer's queue holds eight events (R160). -/
abbrev queueCapacity : Nat := 8

/-- The latency bound in START and LOCKED, and the bound of a settings burst, in microseconds (R147, R152). -/
abbrev startBound : Nat := 64

/-- Greatest value of a counter of the status record (R166). -/
abbrev counterMax : Nat := 65535

/-- Greatest value of a wait count and of a further-fault count (R21). -/
abbrev count8Max : Nat := 255

/-- FREE VALUE. The data of the word at an index of a write that job memory answered FAULT: "the slot's content in
memory is then not known" (R81), "Slot P may hold part of it" (R160). First argument: State.openCount. Log 6. -/
opaque faultedWord : Nat → Nat → Word

/-- FREE VALUE. The parity bit kept with such a word. Log 6. -/
opaque faultedParity : Nat → Nat → Bool

/-- FREE VALUE. Whether a word of a memory write abandoned by RESET_N reached memory: "Memory may or may not hold
their words" (R154). First argument: State.openCount. Log 7. -/
opaque abandonedLanded : Nat → Nat → Bool

end Sys2Proof.Config
end

