-- ==== Sys2Proof/Machine/State.lean ====
section
/-! DEFINITION. The state of the part: the settings in force, the feed tables, the cell bus path, the pins, job memory
behind the port, and the queue of commands waiting. State.reset is the part right after RESET_N is released. -/

namespace Sys2Proof.Machine

/-- The part raises no fault: the spec gives every command an effect (INVENTORY.md, Faults). -/
inductive Fault where
  deriving DecidableEq, Repr

/-- Why a step has no meaning. -/
inductive Refusal where
  /-- Raised by an arm of exec whose command has no meaning yet; safe, since a run stops there. No arm raises it. -/
  | notModelled (mnemonic : String)
  deriving DecidableEq, Repr

/-- R172. -/
inductive PartState where
  | start | locked | run
  deriving DecidableEq, Repr

/-- How the present START began (R172). -/
inductive StartCause where
  | reset | locked | reload
  deriving DecidableEq, Repr

/-- The settings fault code (R172, R175). -/
inductive LoadFault where
  | none | memory | crc | format | range | geometry | overlap | tags
  deriving DecidableEq, Repr

/-! ### Settings -/

/-- A window: its first byte and its number of 16-byte slots; base 0 marks it absent (R170). -/
structure Window where
  base : Nat
  slots : Nat
  deriving DecidableEq, Repr

/-- The fields of the settings image (R170, section 11.5). -/
structure Settings where
  magic : Nat
  version : Nat
  gantryCount : Nat
  stationCount : Nat
  stackCount : Nat
  cellCount : Nat
  cellLen : Nat
  halfWidth : Nat
  margin : Nat
  cmax : Nat
  stackPos : Vector Nat 4
  stationPos : Vector Nat 6
  bayPos : Nat
  guardTime : Vector Nat 6
  landingTimeout : Nat
  moveTimeout : Nat
  filterTime : Nat
  threshold : Nat
  bound : Nat
  driveTag : Vector MasterTag 2
  sawTag : Vector MasterTag 6
  orderWin : Window
  moveWin : Vector Window 2
  completionWin : Vector Window 2
  reportBase : Vector Nat 6
  noticeBase : Vector Nat 6
  ringBase : Nat
  ringLog : Nat
  deriving DecidableEq, Repr

/-- No settings in force: every count is 0, so that no gantry, station or stack is enabled (log 29). -/
def Settings.unset : Settings where
  magic := 0
  version := 0
  gantryCount := 0
  stationCount := 0
  stackCount := 0
  cellCount := 0
  cellLen := 0
  halfWidth := 0
  margin := 0
  cmax := 0
  stackPos := .replicate 4 0
  stationPos := .replicate 6 0
  bayPos := 0
  guardTime := .replicate 6 0
  landingTimeout := 0
  moveTimeout := 0
  filterTime := 0
  threshold := 0
  bound := 0
  driveTag := .replicate 2 0
  sawTag := .replicate 6 0
  orderWin := ⟨0, 0⟩
  moveWin := .replicate 2 ⟨0, 0⟩
  completionWin := .replicate 2 ⟨0, 0⟩
  reportBase := .replicate 6 0
  noticeBase := .replicate 6 0
  ringBase := 0
  ringLog := 0

/-! ### Rail, contexts, orders, stations -/

/-- The state of a rail cell (R2). -/
inductive CellState where
  | free
  | held (g : Gantry)
  | reserved (g : Gantry)
  deriving DecidableEq, Repr

/-- The rail claim table (R2). -/
abbrev Rail := Vector CellState 64

/-- A run of cells, both ends included. -/
structure Span where
  west : Nat
  east : Nat
  deriving DecidableEq, Repr

/-- The kind of blocking a claim meets (R8). -/
inductive Blocking where
  | held | reserved | crossing
  deriving DecidableEq, Repr

/-- R22. -/
inductive CtxState where
  | idle | moving | halted
  deriving DecidableEq, Repr

/-- R21, carry kind. -/
inductive CarryKind where
  | order | orphan | unknown
  deriving DecidableEq, Repr

/-- What a gantry holds in its grip (R21). -/
structure Carry where
  tag : Nat
  len : Nat
  kind : CarryKind
  deriving DecidableEq, Repr

/-- The kinds of a move that can be carried out (R26). -/
inductive MoveKind where
  | travel | pick | place | reject
  deriving DecidableEq, Repr

/-- The in-flight move (R41). `len` is present for a PICK, `station` for a PLACE. -/
structure Flight where
  kind : MoveKind
  toggle : Bool
  target : Nat
  tag : Nat
  len : Option Nat
  station : Option StationId
  west : Nat
  east : Nat
  start : Time
  deriving DecidableEq, Repr

/-- The identity of a waited move (R46). -/
structure WaitId where
  toggle : Bool
  kind : MoveKind
  target : Nat
  deriving DecidableEq, Repr

/-- The wait record (R21, R46, R47). -/
structure WaitRec where
  id : Option WaitId
  count : Nat
  blocked : Bool
  deriving DecidableEq, Repr

/-- The emptied wait record (R46). -/
def WaitRec.empty : WaitRec := ⟨none, 0, false⟩

/-- The halt reasons (R120). -/
inductive HaltReason where
  | powerOn | reload | badMove | memory | moveTimeout | mismatch | span | driveFault | drop | unexpectedGrip | feedReset
  deriving DecidableEq, Repr

/-- The sub-codes of BAD_MOVE (R37). -/
inductive BadMove where
  | kind | range | carrying | noOrder | orderFaulted | notAtStack | notCarrying | notPlaceable | notAtStation | notAtBay
  deriving DecidableEq, Repr

/-- The halt record (R120). -/
structure HaltRec where
  reason : HaltReason
  sub : Option BadMove
  time : Time
  further : Nat
  deriving DecidableEq, Repr

/-- A gantry context (R21). -/
structure Ctx where
  state : CtxState
  pos : Option Nat
  expected : Bool
  lastDone : Bool
  carry : Option Carry
  flight : Option Flight
  wait : WaitRec
  memRun : Nat
  halt : Option HaltRec
  timer : Bool
  deriving DecidableEq, Repr

/-- The power-on values of a context at a time (R23). -/
def Ctx.powerOn (t : Time) : Ctx where
  state := .halted
  pos := none
  expected := false
  lastDone := true
  carry := none
  flight := none
  wait := .empty
  memRun := 0
  halt := some ⟨.powerOn, none, t, 0⟩
  timer := false

/-- A filtered input: its filtered level, and when a running filter interval began (R69). -/
structure Filter where
  level : Bool
  since : Option Time
  deriving DecidableEq, Repr

/-- Why an order is FAULTED (R85). -/
inductive OrderFault where
  | mispicks | lost
  deriving DecidableEq, Repr

/-- An entry of the order list (R74). `fault = none` is the status OPEN. -/
structure Order where
  tag : Nat
  stack : Fin 4
  station : StationId
  len : Nat
  batch : Nat
  remaining : Nat
  out : Nat
  mispicks : Nat
  dep : Nat
  fault : Option OrderFault
  deriving DecidableEq, Repr

/-- The states of a saw station (R96). -/
inductive StState where
  | empty | guard | assigned | landing | loaded | feeding | blocked | fault
  deriving DecidableEq, Repr

/-- Why a station is BLOCKED or in FAULT (R95). -/
inductive StReason where
  | unexpectedPanel | removed | sawFault | landingTimeout | deliveryUnknown | feedReset
  deriving DecidableEq, Repr

/-- The saw state of a report (R111). -/
inductive Saw where
  | clear | busy | fault
  deriving DecidableEq, Repr

/-- A station entry (R95). `presentSince` is the start of a running filter interval (R100). -/
structure Station where
  state : StState
  present : Bool
  presentSince : Option Time
  early : Bool
  saw : Saw
  reportToggle : Bool
  noticeToggle : Bool
  noticeTag : Nat
  noticeBatch : Nat
  reason : Option StReason
  guardStart : Option Time
  landingStart : Option Time
  deriving DecidableEq, Repr

/-- The power-on values of a station entry (R97). -/
def Station.powerOn : Station where
  state := .empty
  present := false
  presentSince := none
  early := false
  saw := .clear
  reportToggle := true
  noticeToggle := true
  noticeTag := 0
  noticeBatch := 0
  reason := none
  guardStart := none
  landingStart := none

/-! ### Events, notices, counters -/

/-- The event codes (R158). -/
inductive EventCode where
  | settingsLoaded | windowRefused | memoryFault | starved | mispick | placeNotReleased | rejectNotReleased
  | orderRefused | orderFaulted | orderDone | orphan | stationBlocked | stationFault | halted | furtherFault
  | haltCleared | mutualBlock
  deriving DecidableEq, Repr

/-- A queued event (R158). -/
structure Event where
  code : EventCode
  subject : Nat
  detail : Nat
  time : Time
  deriving DecidableEq, Repr

/-- A queued landing notice (R115). -/
structure Notice where
  station : StationId
  toggle : Bool
  tag : Nat
  len : Nat
  batch : Nat
  source : Gantry
  time : Time
  deriving DecidableEq, Repr

/-- The nine counters (R166). -/
structure Counters where
  addrParity : Nat
  refused : Nat
  passedParity : Nat
  latencyRetry : Nat
  memFault : Nat
  eventsLost : Nat
  mispicks : Nat
  rejects : Nat
  ordersDone : Nat
  deriving DecidableEq, Repr

/-- The six latched flags (R167). -/
structure Flags where
  addrParity : Bool
  refused : Bool
  passedParity : Bool
  latency : Bool
  memFault : Bool
  eventLoss : Bool
  deriving DecidableEq, Repr

/-- Every counter at 0 (R166). -/
def Counters.zero : Counters := ⟨0, 0, 0, 0, 0, 0, 0, 0, 0⟩

/-- Every flag clear (R167). -/
def Flags.clear : Flags := ⟨false, false, false, false, false, false⟩

/-- The mutual-block report state (R129). -/
inductive MutualReport where
  | armed | spent
  deriving DecidableEq, Repr

/-- The feed side of the part: what stands beside the bus path in the block overview (00_scope section 3). -/
structure Feed where
  part : PartState
  cause : StartCause
  loadFault : LoadFault
  time : Time
  cfg : Settings
  rail : Rail
  ctx : Vector Ctx 2
  vac : Vector Filter 2
  orders : List Order
  stations : Vector Station 6
  blockReport : MutualReport
  notices : List Notice
  events : List Event
  prod : Nat
  cons : Nat
  counts : Counters
  flags : Flags
  deriving DecidableEq, Repr

/-! ### The cell bus path -/

/-- The watched areas (R139). -/
inductive Area where
  | settings | status | control | order
  | move (g : Gantry)
  | completion (g : Gantry)
  | report (st : StationId)
  | notice (st : StationId)
  | event
  deriving DecidableEq, Repr

/-- R137. -/
inductive AnswerKind where
  | done | retry | refuse
  deriving DecidableEq, Repr

/-- The answer of the upstream port to a transaction, with the words a READ is answered with (R137). -/
structure Answer where
  kind : AnswerKind
  data : List PWord
  deriving DecidableEq, Repr

/-- The held transaction that has arrived (R147). `judged = some g` for a judged read of drive g (R28); `bound` is the
latency bound in microseconds it runs against (log 21). -/
structure Held where
  txn : Txn
  judged : Option Gantry
  bound : Nat
  deriving DecidableEq, Repr

/-- The forwarder's open posted write (R146, R149). `reload` marks the record of a RELOAD_SETTINGS taken (R154). -/
structure Posted where
  tag : MasterTag
  area : Area
  addr : Nat
  words : List PWord
  bound : Nat
  reload : Bool
  deriving DecidableEq, Repr

/-- The claimants of the memory port (R151). -/
inductive Claimant where
  | forwarder | own
  deriving DecidableEq, Repr

/-- What the operation in progress at the memory port is for (R150). -/
inductive OpKind where
  | judged (g : Gantry)
  | raw
  | posted
  | notice (st : StationId)
  | event
  | settings
  deriving DecidableEq, Repr

/-- The operation in progress at the memory port: the address, a read's length or a write's words, and whether the
answer is to be discarded (R148, R151, R179). -/
structure PortOp where
  kind : OpKind
  addr : Nat
  op : TxnOp
  discard : Bool
  deriving DecidableEq, Repr

/-- The bus path: upstream port, forwarder, memory port and settings reader. `turn` is the model's own: the claimant
to which the free port goes at the next PORT_GRANT (log 14). -/
structure Bus where
  onBus : Option Txn
  held : Option Held
  answer : Option Answer
  posted : Option Posted
  port : Option PortOp
  lastGrant : Claimant
  turn : Option Claimant
  image : List Word
  deriving DecidableEq, Repr

/-- Job memory behind the port: its bytes, and the words whose kept parity bit is wrong, each a canonical list
(log 3, log 4). -/
structure Memory where
  bytes : List Host.Cell
  badParity : List (Nat × Bool)
  deriving DecidableEq, Repr

/-- The state of the part, its pins, job memory and the commands waiting. `openCount` is the model's own: the counter
the free values are drawn with. -/
structure State where
  resetLow : Bool
  vacRaw : Vector Bool 2
  presentRaw : Vector Bool 6
  base : BitVec 4
  lcTag : MasterTag
  feed : Feed
  bus : Bus
  mem : Memory
  openCount : Nat
  pending : List Instr
  deriving DecidableEq, Repr

/-- The feed side after RESET_N is released (R3, R23, R75, R97, R129, R159, R166, R167, R172, R173). -/
def Feed.reset : Feed where
  part := .start
  cause := .reset
  loadFault := .none
  time := 0
  cfg := .unset
  rail := .replicate 64 .free
  ctx := .replicate 2 (.powerOn 0)
  vac := .replicate 2 ⟨false, none⟩
  orders := []
  stations := .replicate 6 .powerOn
  blockReport := .armed
  notices := []
  events := []
  prod := 0
  cons := 0
  counts := .zero
  flags := .clear

/-- The bus path after RESET_N is released: the port free, the last grant the forwarder's, and the settings reader
waiting (R154, R173, R174). -/
def Bus.reset : Bus where
  onBus := none
  held := none
  answer := none
  posted := none
  port := none
  lastGrant := .forwarder
  turn := some .own
  image := []

/-- The part right after RESET_N is released. The straps, the raw sensor levels and memory's contents are design
choices (log 1, log 2, log 3). -/
def State.reset : State where
  resetLow := false
  vacRaw := .replicate 2 false
  presentRaw := .replicate 6 false
  base := 0
  lcTag := 0
  feed := .reset
  bus := .reset
  mem := ⟨[], []⟩
  openCount := 0
  pending := []

end Sys2Proof.Machine
end

