-- ==== Sys2Proof/Machine/Flags.lean ====
section
/-! DEFINITION. Counters and latched flags (R166, R167), the event ring's occupancy (R159), and the output lines HOLD,
ALERT and PERMIT (R123, R168, R114). -/

namespace Sys2Proof.Machine

/-- The nine counters by name (R166). -/
inductive Counter where
  | addrParity | refused | passedParity | latencyRetry | memFault | eventsLost | mispicks | rejects | ordersDone
  deriving DecidableEq, Repr

/-- A counter raised by one; it "stops at 65,535 and does not wrap" (R166). -/
def satUp (limit n : Nat) : Nat := min (n + 1) limit

/-- The counters with one of them raised (R166). -/
def Counters.raise (k : Counters) : Counter → Counters
  | .addrParity => { k with addrParity := satUp Config.counterMax k.addrParity }
  | .refused => { k with refused := satUp Config.counterMax k.refused }
  | .passedParity => { k with passedParity := satUp Config.counterMax k.passedParity }
  | .latencyRetry => { k with latencyRetry := satUp Config.counterMax k.latencyRetry }
  | .memFault => { k with memFault := satUp Config.counterMax k.memFault }
  | .eventsLost => { k with eventsLost := satUp Config.counterMax k.eventsLost }
  | .mispicks => { k with mispicks := satUp Config.counterMax k.mispicks }
  | .rejects => { k with rejects := satUp Config.counterMax k.rejects }
  | .ordersDone => { k with ordersDone := satUp Config.counterMax k.ordersDone }

/-- The flags after a counter is raised: its flag is set, if it has one (R167). -/
def Flags.raise (k : Flags) : Counter → Flags
  | .addrParity => { k with addrParity := true }
  | .refused => { k with refused := true }
  | .passedParity => { k with passedParity := true }
  | .latencyRetry => { k with latency := true }
  | .memFault => { k with memFault := true }
  | .eventsLost => { k with eventLoss := true }
  | .mispicks => k
  | .rejects => k
  | .ordersDone => k

/-- At least one latched flag is set (R168). -/
def Flags.any (k : Flags) : Bool :=
  k.addrParity || k.refused || k.passedParity || k.latency || k.memFault || k.eventLoss

/-- Raising a counter, with its flag (R166, R167). -/
def Feed.count (c : Counter) (f : Feed) : Feed :=
  { f with counts := f.counts.raise c, flags := f.flags.raise c }

/-- The ring's capacity C (R159, section 11.5 word 38). -/
def Feed.ringCap (f : Feed) : Nat := 2 ^ f.cfg.ringLog

/-- Written events not yet acknowledged: (P - Q) mod C (section 8.4). -/
def Feed.unacked (f : Feed) : Nat := (f.prod + f.ringCap - f.cons) % f.ringCap

/-- The occupancy of the ring: written and unacknowledged plus queued (R159). -/
def Feed.occupancy (f : Feed) : Nat := f.unacked + f.events.length

/-- The gantry's context is enabled (R25). -/
def Feed.gantryOn (f : Feed) (g : Gantry) : Bool := decide (g.val < f.cfg.gantryCount)

/-- The station is enabled (R95). -/
def Feed.stationOn (f : Feed) (st : StationId) : Bool := decide (st.val < f.cfg.stationCount)

/-- Some enabled context is HALTED. -/
def Feed.anyHalted (f : Feed) : Bool :=
  (f.gantryOn 0 && decide (f.ctx[0].state = .halted)) || (f.gantryOn 1 && decide (f.ctx[1].state = .halted))

/-- The feed hold: "exactly while the part is not in RUN or at least one enabled gantry context is HALTED" (R123). -/
def Feed.hold (f : Feed) : Bool := decide (f.part ≠ .run) || f.anyHalted

/-- "ALERT is asserted exactly while the event ring occupancy is above 0 or at least one latched flag is set"
(R168). -/
def Feed.alert (f : Feed) : Bool := decide (0 < f.occupancy) || f.flags.any

/-- The HOLD line: asserted too while RESET_N is (R173). -/
def State.holdOut (s : State) : Bool := s.resetLow || s.feed.hold

/-- The ALERT line: low while RESET_N is asserted (R173). -/
def State.alertOut (s : State) : Bool := !s.resetLow && s.feed.alert

/-- The PERMIT line of a station: "high exactly while station s is LOADED, and low in every other state, in every part
state and for a disabled station" (R114), and low while RESET_N is asserted (R173). The part state is tested because
the stored entries outlive a RELOAD until the load ends (log 19). -/
def State.permitOut (s : State) (st : StationId) : Bool :=
  !s.resetLow && decide (s.feed.part = .run) && s.feed.stationOn st && decide (s.feed.stations[st].state = .loaded)

end Sys2Proof.Machine
end

