-- ==== Sys2Proof/Machine/Rail.lean ====
section
/-! DEFINITION. The rail claim table: spans and the requests of chapter 1 (R1 to R16). -/

namespace Sys2Proof.Machine

/-- The other gantry. -/
def other (g : Gantry) : Gantry := 1 - g

/-- Rail length R = N x L (R1). -/
def Settings.railLen (c : Settings) : Nat := c.cellCount * c.cellLen

/-- The extent of a gantry for a panel length (R4). -/
def Settings.extent (c : Settings) (len : Nat) : Nat := max c.halfWidth ((len + 1) / 2) + c.margin

/-- The panel length that applies to a carry (R4). -/
def Settings.carryLen (c : Settings) (carry : Option Carry) : Nat :=
  match carry with
  | none => 0
  | some k => match k.kind with
    | .order => k.len
    | .orphan => k.len
    | .unknown => c.cmax

/-- The run of cells covering an interval of millimetres clipped to the rail (R5): a west bound below 0 is clipped
by the subtraction of natural numbers. -/
def Settings.cover (c : Settings) (lo hi e : Nat) : Span where
  west := (lo - e) / c.cellLen
  east := min (hi + e) (c.railLen - 1) / c.cellLen

/-- The occupancy span at a position with a carry (R5). -/
def Settings.occupancy (c : Settings) (p : Nat) (carry : Option Carry) : Span :=
  c.cover p p (c.extent (c.carryLen carry))

/-- The swept span of a move between two positions for a panel length (R6). -/
def Settings.swept (c : Settings) (p0 p1 len : Nat) : Span :=
  c.cover (min p0 p1) (max p0 p1) (c.extent len)

/-- A cell index lies in a run. -/
def Span.has (r : Span) (i : Nat) : Bool := decide (r.west ≤ i ∧ i ≤ r.east)

/-- The one gantry a HELD or RESERVED state names (R2). -/
def CellState.owner : CellState → Option Gantry
  | .free => none
  | .held g => some g
  | .reserved g => some g

/-- The state of a cell; an index beyond the 64 cells is FREE. -/
def cellAt (t : Rail) (i : Nat) : CellState := if h : i < 64 then t[i] else .free

/-- The table with each cell's state changed by its index and state. -/
def mapCells (t : Rail) (f : Nat → CellState → CellState) : Rail := Vector.ofFn fun i : Fin 64 => f i.val t[i]

/-- The empty table (R3). -/
def freeRail : Rail := .replicate 64 .free

/-- The westernmost cell whose state satisfies p. -/
def westmost (t : Rail) (p : CellState → Bool) : Option Nat := (List.range 64).find? fun i => p (cellAt t i)

/-- The easternmost cell whose state satisfies p. -/
def eastmost (t : Rail) (p : CellState → Bool) : Option Nat := (List.range 64).reverse.find? fun i => p (cellAt t i)

/-- HELD by a gantry. -/
def isHeld (g : Gantry) (c : CellState) : Bool := c == .held g

/-- The run held by a gantry, if any (R20). -/
def heldRun (t : Rail) (g : Gantry) : Option Span :=
  match westmost t (isHeld g), eastmost t (isHeld g) with
  | some w, some e => some ⟨w, e⟩
  | _, _ => none

/-- A cell lies beyond the nearest cell the other gantry holds, seen from gantry g (R8, CROSSING; R13, step 2). -/
def crossing (t : Rail) (g : Gantry) (i : Nat) : Bool :=
  if g = 0 then
    match westmost t (isHeld 1) with
    | some w => decide (w ≤ i)
    | none => false
  else
    match eastmost t (isHeld 0) with
    | some e => decide (i ≤ e)
    | none => false

/-- The kind of blocking of a cell of a claimed run, the first of the three that applies (R8). -/
def blockKind (t : Rail) (g : Gantry) (run : Span) (i : Nat) : Option Blocking :=
  if run.has i then
    if cellAt t i = .held (other g) then some .held
    else if cellAt t i = .reserved (other g) then some .reserved
    else if crossing t g i then some .crossing
    else none
  else none

/-- The blocking cell nearest the requester: the westernmost for gantry 0, the easternmost for gantry 1 (R8). -/
def blockingCell (t : Rail) (g : Gantry) (run : Span) : Option Nat :=
  (if g = 0 then List.range 64 else (List.range 64).reverse).find? fun i => (blockKind t g run i).isSome

/-- The answer to a claim request (R8). -/
inductive ClaimAnswer where
  | granted (t : Rail)
  | conflict (cell : Nat) (kind : Blocking)
  deriving DecidableEq, Repr

/-- A claim request (R8). -/
def claim (t : Rail) (g : Gantry) (run : Span) : ClaimAnswer :=
  match blockingCell t g run with
  | none => .granted (mapCells t fun i c => if run.has i then .held g else if c.owner = some g then .free else c)
  | some i => .conflict i ((blockKind t g run i).getD .held)

/-- A shrink request (R11): none is OUTSIDE. -/
def shrink (t : Rail) (g : Gantry) (o : Span) : Option Rail :=
  if (List.range 64).all (fun i => !o.has i || isHeld g (cellAt t i)) then
    some (mapCells t fun i c => if c = .held g ∧ o.has i = false then .free else c)
  else none

/-- A freeze or withdraw request: every RESERVED(g) cell becomes FREE (R12, R15). -/
def unreserve (t : Rail) (g : Gantry) : Rail :=
  mapCells t fun _ c => if c = .reserved g then .free else c

/-- The answer to a reseat request (R13). -/
inductive ReseatAnswer where
  | granted (t : Rail)
  | conflict
  | crossed
  deriving DecidableEq, Repr

/-- A reseat request (R13). -/
def reseat (t : Rail) (g : Gantry) (o : Span) : ReseatAnswer :=
  if (List.range 64).any (fun i => o.has i && decide ((cellAt t i).owner = some (other g))) then .conflict
  else if (List.range 64).any (fun i => o.has i && crossing t g i) then .crossed
  else .granted (mapCells t fun i c => if o.has i then .held g else if c.owner = some g then .free else c)

/-- The near side of a gantry as a run of cells: from just beyond its own held run up to, but not including, the first
cell the other gantry holds or has reserved (R14). None in the cases where the request changes nothing. -/
def nearSide (t : Rail) (g : Gantry) : Option Span :=
  if g = 0 then
    match eastmost t (isHeld 0) with
    | none => none
    | some e =>
      match (List.range 64).find? fun i => decide (e < i) && decide ((cellAt t i).owner = some 1) with
      | none => none
      | some stop => if e + 1 < stop then some ⟨e + 1, stop - 1⟩ else none
  else
    match westmost t (isHeld 1) with
    | none => none
    | some w =>
      match (List.range 64).reverse.find? fun i => decide (i < w) && decide ((cellAt t i).owner = some 0) with
      | none => none
      | some stop => if stop + 1 < w then some ⟨stop + 1, w - 1⟩ else none

/-- A reserve request (R14). -/
def reserve (t : Rail) (g : Gantry) : Rail :=
  match nearSide t g with
  | none => t
  | some r => mapCells t fun i c => if r.has i = true ∧ c = .free then .reserved g else c

/-- At least one cell's state changed into or out of HELD or RESERVED of a gantry (R47). -/
def changedOf (h : Gantry) (old new : Rail) : Bool :=
  (List.range 64).any fun i =>
    decide (cellAt old i ≠ cellAt new i) &&
      (decide ((cellAt old i).owner = some h) || decide ((cellAt new i).owner = some h))

end Sys2Proof.Machine
end

