-- ==== Sys2Proof/Machine/Operands.lean ====
section
/-! DEFINITION. The records and their codes: what the part reads from each record, how it stamps it, and what it
writes of its own accord (R181 to R183, sections 11.1 to 11.3). -/

namespace Sys2Proof.Machine

/-! ### Codes of section 11.3 -/

def HaltReason.code : HaltReason → Nat
  | .powerOn => 1
  | .reload => 2
  | .badMove => 3
  | .memory => 4
  | .moveTimeout => 5
  | .mismatch => 6
  | .span => 7
  | .driveFault => 8
  | .drop => 9
  | .unexpectedGrip => 10
  | .feedReset => 11

def BadMove.code : BadMove → Nat
  | .kind => 1
  | .range => 2
  | .carrying => 3
  | .noOrder => 4
  | .orderFaulted => 5
  | .notAtStack => 6
  | .notCarrying => 7
  | .notPlaceable => 8
  | .notAtStation => 9
  | .notAtBay => 10

def Blocking.code : Blocking → Nat
  | .held => 1
  | .reserved => 2
  | .crossing => 3

def MoveKind.code : MoveKind → Nat
  | .travel => 1
  | .pick => 2
  | .place => 3
  | .reject => 4

/-- The move kind of a code that names a move (R26); any other kind is unknown. -/
def MoveKind.ofCode (n : Nat) : Option MoveKind :=
  if n = 1 then some .travel else if n = 2 then some .pick else if n = 3 then some .place
  else if n = 4 then some .reject else none

def OrderFault.code : OrderFault → Nat
  | .mispicks => 1
  | .lost => 2

def StReason.code : StReason → Nat
  | .unexpectedPanel => 1
  | .removed => 2
  | .sawFault => 3
  | .landingTimeout => 4
  | .deliveryUnknown => 5
  | .feedReset => 6

def StState.code : StState → Nat
  | .empty => 1
  | .guard => 2
  | .assigned => 3
  | .landing => 4
  | .loaded => 5
  | .feeding => 6
  | .blocked => 7
  | .fault => 8

def CtxState.code : CtxState → Nat
  | .idle => 1
  | .moving => 2
  | .halted => 3

/-- The code of a disabled context or station in the status record. -/
def disabledCode : Nat := 15

def CarryKind.code : CarryKind → Nat
  | .order => 1
  | .orphan => 2
  | .unknown => 3

def Saw.code : Saw → Nat
  | .clear => 1
  | .busy => 2
  | .fault => 3

/-- "any other value is taken as FAULT" (R111). -/
def Saw.ofCode (n : Nat) : Saw := if n = 1 then .clear else if n = 2 then .busy else .fault

def CellState.code : CellState → Nat
  | .free => 0
  | .held g => 1 + g.val
  | .reserved g => 3 + g.val

def PartState.code : PartState → Nat
  | .start => 1
  | .locked => 2
  | .run => 3

def StartCause.code : StartCause → Nat
  | .reset => 1
  | .locked => 2
  | .reload => 3

def LoadFault.code : LoadFault → Nat
  | .none => 0
  | .memory => 1
  | .crc => 2
  | .format => 3
  | .range => 4
  | .geometry => 5
  | .overlap => 6
  | .tags => 7

def EventCode.code : EventCode → Nat
  | .settingsLoaded => 1
  | .windowRefused => 2
  | .memoryFault => 3
  | .starved => 4
  | .mispick => 5
  | .placeNotReleased => 6
  | .rejectNotReleased => 7
  | .orderRefused => 8
  | .orderFaulted => 9
  | .orderDone => 10
  | .orphan => 11
  | .stationBlocked => 12
  | .stationFault => 13
  | .halted => 14
  | .furtherFault => 15
  | .haltCleared => 16
  | .mutualBlock => 17

def Area.code : Area → Nat
  | .settings => 1
  | .status => 2
  | .control => 3
  | .order => 4
  | .move _ => 5
  | .completion _ => 6
  | .report _ => 7
  | .notice _ => 8
  | .event => 9

/-- Why a window refuses a transaction (R143). -/
inductive Refuse where
  | align | tag | parity | partOwned
  deriving DecidableEq, Repr

def Refuse.code : Refuse → Nat
  | .align => 1
  | .tag => 2
  | .parity => 3
  | .partOwned => 4

/-- Why an admission request is refused (R78). -/
inductive OrderRefusal where
  | dupTag | badStack | badStation | badLength | badBatch | badDependency
  deriving DecidableEq, Repr

def OrderRefusal.code : OrderRefusal → Nat
  | .dupTag => 1
  | .badStack => 2
  | .badStation => 3
  | .badLength => 4
  | .badBatch => 5
  | .badDependency => 6

/-- Why a carry was orphaned (R89, R91). -/
inductive OrphanWhy where
  | cancelled | feedReset
  deriving DecidableEq, Repr

def OrphanWhy.code : OrphanWhy → Nat
  | .cancelled => 1
  | .feedReset => 2

/-- The results stamped into control records (R156). -/
inductive Result where
  | done | busy | notFound | badOperand | notHalted | needPosition | conflict | crossed | stillPresent | sawFault
  | badIndex | locked | unknown
  deriving DecidableEq, Repr

def Result.code : Result → Nat
  | .done => 1
  | .busy => 2
  | .notFound => 3
  | .badOperand => 4
  | .notHalted => 5
  | .needPosition => 6
  | .conflict => 7
  | .crossed => 8
  | .stillPresent => 9
  | .sawFault => 10
  | .badIndex => 11
  | .locked => 12
  | .unknown => 13

/-- The reasons of a WAIT other than RAIL (section 11.3). -/
inductive WaitReason where
  | memory | noMove | busy | hold | orderOut | station | plan
  deriving DecidableEq, Repr

def WaitReason.code : WaitReason → Nat
  | .memory => 4
  | .noMove => 16
  | .busy => 17
  | .hold => 18
  | .orderOut => 19
  | .station => 20
  | .plan => 21

/-- The reason code RAIL. -/
def railReasonCode : Nat := 22

/-! ### Records read -/

/-- What the part examines of a move record (R26). -/
structure MoveRec where
  kind : Nat
  toggle : Bool
  tag : Nat
  target : Nat
  deriving DecidableEq, Repr

/-- The move record layout of section 11.1. -/
def MoveRec.ofWords (ws : List Word) : MoveRec where
  kind := field (wordAt ws 0) 0 4
  toggle := bit (wordAt ws 0) 4
  tag := field (wordAt ws 0) 8 12
  target := field (wordAt ws 1) 0 24

/-- The outcome of a completion (R52); any other value is an unknown outcome. -/
inductive Ending where
  | reached | short | fault | unknown
  deriving DecidableEq, Repr

def Ending.ofCode (n : Nat) : Ending :=
  if n = 1 then .reached else if n = 2 then .short else if n = 3 then .fault else .unknown

/-- What the part examines of a completion record (R52). -/
structure CompletionRec where
  toggle : Bool
  kind : Nat
  ending : Ending
  reached : Nat
  deriving DecidableEq, Repr

/-- The completion record layout of section 11.1. -/
def CompletionRec.ofWords (ws : List Word) : CompletionRec where
  toggle := bit (wordAt ws 0) 4
  kind := field (wordAt ws 0) 0 4
  ending := .ofCode (field (wordAt ws 0) 8 4)
  reached := field (wordAt ws 1) 0 24

/-- The stamp of a completion (R52). -/
inductive Stamp where
  | taken | late | duplicate | mismatch
  deriving DecidableEq, Repr

def Stamp.code : Stamp → Nat
  | .taken => 1
  | .late => 2
  | .duplicate => 3
  | .mismatch => 4

/-- What the part examines of an order record (R76). -/
structure OrderRec where
  tag : Nat
  stack : Nat
  station : Nat
  batch : Nat
  len : Nat
  dep : Nat
  deriving DecidableEq, Repr

/-- The order record layout of section 11.1. -/
def OrderRec.ofWords (ws : List Word) : OrderRec where
  tag := field (wordAt ws 0) 0 12
  stack := field (wordAt ws 0) 12 4
  station := field (wordAt ws 0) 16 4
  batch := field (wordAt ws 0) 20 4
  len := field (wordAt ws 1) 0 16
  dep := field (wordAt ws 1) 16 12

/-- What the part examines of a report record (R111). -/
structure ReportRec where
  toggle : Bool
  saw : Saw
  deriving DecidableEq, Repr

/-- The report record layout of section 11.1. -/
def ReportRec.ofWords (ws : List Word) : ReportRec where
  toggle := bit (wordAt ws 0) 4
  saw := .ofCode (field (wordAt ws 0) 0 4)

/-- The control commands (R156). -/
inductive Command where
  | clearHalt | cancelOrder | unblockStation | ackEvents | resetFeed | reloadSettings | unknown
  deriving DecidableEq, Repr

def Command.ofCode (n : Nat) : Command :=
  if n = 1 then .clearHalt else if n = 2 then .cancelOrder else if n = 3 then .unblockStation
  else if n = 4 then .ackEvents else if n = 5 then .resetFeed else if n = 6 then .reloadSettings else .unknown

/-- What the part examines of a control record (R156); operand B counts as given when its present flag is set. -/
structure ControlFields where
  command : Command
  opA : Nat
  opB : Option Nat
  deriving DecidableEq, Repr

/-- The control record layout of section 11.1. -/
def ControlFields.ofWords (ws : List Word) : ControlFields where
  command := .ofCode (field (wordAt ws 0) 0 8)
  opA := field (wordAt ws 0) 16 16
  opB := if bit (wordAt ws 1) 31 then some (field (wordAt ws 1) 0 24) else none

/-- The four words of a control record with a command code (section 11.1). -/
def controlWords (code : BitVec 8) (r : ControlRec) : List Word :=
  [r.opA ++ r.spare0 ++ code, BitVec.ofBool r.bGiven ++ r.spare1 ++ r.opB, r.word2, r.word3]

/-! ### Stamping and writing -/

/-- A record with n bits of its word 2 from bit lo replaced by a stamp; every other bit as received (R183). -/
def stampWords (ws : List Word) (n v : Nat) : List Word := ws.set 2 (setField (wordAt ws 2) 0 n v)

/-- Words going out with parity generated afresh (R183). -/
def outWords (ws : List Word) : List PWord := ws.map PWord.good

/-- The verdict of a judged read with what its stamp carries (R30). -/
inductive Verdict where
  | accept (run : Span)
  | again (run : Option Span)
  | waitMemory
  | wait (why : WaitReason)
  | waitRail (kind : Blocking) (cell : Nat)
  | stop (why : HaltReason) (sub : Option BadMove)
  deriving DecidableEq, Repr

/-- The value of a cell field that names no cell (R30). -/
def noCell : Nat := 255

/-- The stamp word of a returned move record (section 11.1, word 2). -/
def stampWord (verdict detail reason west east : Nat) : Word :=
  pack [(0, 4, verdict), (4, 4, detail), (8, 8, reason), (16, 8, west), (24, 8, east)]

/-- Word 2 of the returned record (the table of R30). -/
def Verdict.stamp : Verdict → Word
  | .accept run => stampWord 1 0 0 run.west run.east
  | .again (some run) => stampWord 4 0 0 run.west run.east
  | .again none => stampWord 4 0 0 noCell noCell
  | .waitMemory => stampWord 2 0 WaitReason.memory.code noCell noCell
  | .wait why => stampWord 2 0 why.code noCell noCell
  | .waitRail kind cell => stampWord 2 kind.code railReasonCode cell cell
  | .stop why sub => stampWord 3 ((sub.map BadMove.code).getD 0) why.code noCell noCell

/-- The kind of a substituted WAIT and STOP (R30). -/
def waitKind : Nat := 8
def stopKind : Nat := 9

/-- The four words returned to the drive (R30, R182): a record as read for ACCEPT and REPEAT, a substitute with its
kind field set for WAIT and STOP, and all 0 but the kind and the stamps where the memory data were bad. -/
def Verdict.words (t : Time) (rec : List Word) (v : Verdict) : List Word :=
  match v with
  | .accept _ => [wordAt rec 0, wordAt rec 1, v.stamp, t]
  | .again _ => [wordAt rec 0, wordAt rec 1, v.stamp, t]
  | .waitMemory => [pack [(0, 4, waitKind)], 0, v.stamp, t]
  | .wait _ => [setField (wordAt rec 0) 0 4 waitKind, wordAt rec 1, v.stamp, t]
  | .waitRail _ _ => [setField (wordAt rec 0) 0 4 waitKind, wordAt rec 1, v.stamp, t]
  | .stop _ _ => [setField (wordAt rec 0) 0 4 stopKind, wordAt rec 1, v.stamp, t]

/-- The landing notice record (section 11.2). -/
def Notice.words (n : Notice) : List Word :=
  [pack [(4, 1, bitNat n.toggle), (8, 12, n.tag), (20, 4, n.batch), (24, 1, n.source.val)], pack [(0, 16, n.len)], 0,
    n.time]

/-- The event record (section 11.2). -/
def Event.words (e : Event) : List Word :=
  [pack [(0, 8, e.code.code), (16, 12, e.subject)], pack [(0, 16, e.detail)], 0, e.time]

end Sys2Proof.Machine
end

