-- ==== Sys2Proof/Machine/Ops.lean ====
section
/-! DEFINITION. The named operations over the feed side that the commands share: raising an event, changing the rail
table, halting a context, stepping an order's counts, blocking a station. -/

namespace Sys2Proof.Machine

/-! ### Contexts and stations -/

/-- The feed with one context changed. -/
def Feed.modCtx (g : Gantry) (h : Ctx → Ctx) (f : Feed) : Feed := { f with ctx := f.ctx.set g (h f.ctx[g]) }

/-- The feed with one station entry changed. -/
def Feed.modStation (st : StationId) (h : Station → Station) (f : Feed) : Feed :=
  { f with stations := f.stations.set st (h f.stations[st]) }

/-! ### Events (R158 to R160) -/

/-- Raising an event: queued, or dropped and counted when the ring or the queue is full; in START and LOCKED it is
neither queued nor counted (R160). -/
def Feed.raise (code : EventCode) (subject detail : Nat) (f : Feed) : Feed :=
  if f.part ≠ .run then f
  else if f.ringCap - 1 ≤ f.occupancy ∨ Config.queueCapacity ≤ f.events.length then f.count .eventsLost
  else { f with events := f.events ++ [⟨code, subject, detail, f.time⟩] }

/-! ### The rail table inside the part (R47) -/

/-- The context with its blocked-by-other flag cleared. -/
def Ctx.unblocked (c : Ctx) : Ctx := { c with wait := { c.wait with blocked := false } }

/-- The table changed by a request: a context's blocked-by-other flag is cleared where a cell's state changed into or
out of HELD or RESERVED of the other gantry (R47). -/
def Feed.setRail (t : Rail) (f : Feed) : Feed :=
  { f with
    rail := t
    ctx := Vector.ofFn fun g : Fin 2 => if changedOf (other g) f.rail t then f.ctx[g].unblocked else f.ctx[g] }

/-! ### Halts (R121, R122) -/

/-- The context as a halt leaves it: halt record, state, wait record and timer (R121 steps 1, 2, 4 and 5). -/
def Ctx.halted (reason : HaltReason) (sub : Option BadMove) (t : Time) (c : Ctx) : Ctx :=
  { c with state := .halted, halt := some ⟨reason, sub, t, 0⟩, wait := .empty, timer := false }

/-- A halt: the record is written or replaced, the claims are frozen, and a HALTED event is raised (R121; R132 for a
context that is halted already). -/
def Feed.haltCtx (g : Gantry) (reason : HaltReason) (sub : Option BadMove) (f : Feed) : Feed :=
  ((f.modCtx g (·.halted reason sub f.time)).setRail (unreserve f.rail g)).raise .halted g.val reason.code

/-- The halt record with one more further fault (R122). -/
def HaltRec.more (h : HaltRec) : HaltRec := { h with further := satUp Config.count8Max h.further }

/-- A further fault at a HALTED context (R122). -/
def Feed.furtherFault (g : Gantry) (reason : HaltReason) (f : Feed) : Feed :=
  (f.modCtx g fun c => { c with halt := c.halt.map HaltRec.more }).raise .furtherFault g.val reason.code

/-- A cause of halt: a halt in IDLE or MOVING, a further fault in HALTED (R56, R122). -/
def Feed.fault (g : Gantry) (reason : HaltReason) (f : Feed) : Feed :=
  if f.ctx[g].state = .halted then f.furtherFault g reason else f.haltCtx g reason none

/-! ### Orders (chapter 4) -/

/-- The entry of a tag (R74). -/
def Feed.findOrder (f : Feed) (tag : Nat) : Option Order := f.orders.find? (·.tag == tag)

/-- The entry of a tag changed; nothing where the tag is not in the list (R57, R84). -/
def Feed.modOrder (tag : Nat) (h : Order → Order) (f : Feed) : Feed :=
  { f with orders := f.orders.map fun o => if o.tag = tag then h o else o }

/-- The out count lowered by one. -/
def Feed.lowerOut (tag : Nat) (f : Feed) : Feed := f.modOrder tag fun o => { o with out := o.out - 1 }

/-- An entry becomes FAULTED, with its event; an entry already FAULTED keeps its first reason (R85). -/
def Feed.faultOrder (tag : Nat) (why : OrderFault) (f : Feed) : Feed :=
  match f.findOrder tag with
  | some o =>
    if o.fault = none then
      (f.modOrder tag fun o => { o with fault := some why }).raise .orderFaulted tag why.code
    else f
  | none => f

/-- A panel counted in the out count is lost (R70, R66, R125). -/
def Feed.lostPanel (tag : Nat) (f : Feed) : Feed := (f.lowerOut tag).faultOrder tag .lost

/-- The removal of an entry; the dependencies that name it are satisfied (R83, R87). -/
def removeOrder (tag : Nat) (os : List Order) : List Order :=
  (os.filter fun o => o.tag != tag).map fun o => if o.dep = tag then { o with dep := 0 } else o

/-- The head of a station: the earliest-admitted entry for it, whatever its status (R82). -/
def Feed.headOf (f : Feed) (st : StationId) : Option Order := f.orders.find? (·.station == st)

/-- A panel placed: out and remaining lowered, and the order leaves the list at remaining 0 (R59, R86). -/
def Feed.placedPanel (tag : Nat) (f : Feed) : Feed :=
  match f.findOrder tag with
  | some o =>
    if o.remaining ≤ 1 then
      (({ f with orders := removeOrder tag f.orders }).raise .orderDone tag 0).count .ordersDone
    else f.modOrder tag fun o => { o with out := o.out - 1, remaining := o.remaining - 1 }
  | none => f

/-- A mispick: out lowered, mispick count and MISPICKS raised, its event, and FAULTED at 3 (R58, R84). -/
def Feed.mispicked (tag : Nat) (f : Feed) : Feed :=
  match f.findOrder tag with
  | some o =>
    let n := satUp 3 o.mispicks
    let f := f.modOrder tag fun o => { o with out := o.out - 1, mispicks := n }
    let f := (f.count .mispicks).raise .mispick tag n
    if n = 3 then f.faultOrder tag .mispicks else f
  | none => f

/-! ### Stations (chapter 5) -/

/-- The entry as every entry into BLOCKED or FAULT leaves it (R99). -/
def Station.stopped (state : StState) (why : StReason) (x : Station) : Station :=
  { x with state := state, reason := some why, guardStart := none, landingStart := none, early := false }

/-- A station goes to BLOCKED (R99). -/
def Feed.blockStation (st : StationId) (why : StReason) (f : Feed) : Feed :=
  (f.modStation st (·.stopped .blocked why)).raise .stationBlocked st.val why.code

/-- A station goes to FAULT (R99). -/
def Feed.faultStation (st : StationId) (why : StReason) (f : Feed) : Feed :=
  (f.modStation st (·.stopped .fault why)).raise .stationFault st.val why.code

/-- A feed is complete: GUARD with its timer started, or EMPTY with a guard time of 0 (R110). -/
def Feed.toGuard (st : StationId) (f : Feed) : Feed :=
  f.modStation st fun x =>
    if f.cfg.guardTime[st] = 0 then { x with state := .empty }
    else { x with state := .guard, guardStart := some f.time }

/-- The landing of a released panel at an ASSIGNED station (R104). -/
def Feed.landed (st : StationId) (f : Feed) : Feed :=
  if f.stations[st].state = .assigned then
    f.modStation st fun x =>
      if x.early then { x with state := .loaded, early := false }
      else { x with state := .landing, landingStart := some f.time }
  else f

/-- A placement returned to an ASSIGNED station (R105). -/
def Feed.returned (st : StationId) (f : Feed) : Feed :=
  if f.stations[st].state = .assigned then
    if f.stations[st].present then f.blockStation st .unexpectedPanel
    else f.modStation st fun x => { x with state := .empty, early := false }
  else f

/-- The unsettled close of a PLACE at an ASSIGNED station (R106). -/
def Feed.deliveryUnknown (st : StationId) (f : Feed) : Feed :=
  if f.stations[st].state = .assigned then f.faultStation st .deliveryUnknown else f

/-! ### Carries lost and found (R70, R71) -/

/-- The order tag of an ORDER carry. -/
def orderTag (carry : Option Carry) : Option Nat :=
  match carry with
  | some k => if k.kind = .order then some k.tag else none
  | none => none

/-- A change made to the order of an ORDER carry, if the carry is one. -/
def Feed.onOrder (carry : Option Carry) (h : Nat → Feed → Feed) (f : Feed) : Feed :=
  match orderTag carry with
  | some tag => h tag f
  | none => f

/-- The carry replaced. -/
def Feed.setCarry (g : Gantry) (carry : Option Carry) (f : Feed) : Feed := f.modCtx g fun c => { c with carry := carry }

/-- The UNKNOWN carry (R71). -/
def unknownCarry (c : Settings) : Carry := ⟨0, c.cmax, .unknown⟩

/-- A DROP (R70): the ORDER_FAULTED event precedes the HALTED or FURTHER_FAULT event. -/
def Feed.drop (g : Gantry) (f : Feed) : Feed :=
  ((f.setCarry g none).onOrder f.ctx[g].carry Feed.lostPanel).fault g .drop

/-- An UNEXPECTED_GRIP (R71). -/
def Feed.unexpectedGrip (g : Gantry) (f : Feed) : Feed :=
  (f.setCarry g (some (unknownCarry f.cfg))).fault g .unexpectedGrip

/-- The filtered VAC level of a gantry (R69). -/
def Feed.vacOf (f : Feed) (g : Gantry) : Bool := f.vac[g].level

/-! ### Sensor filters (R69, R100) -/

/-- The filter of a gantry's VAC replaced. -/
def Feed.setVac (g : Gantry) (x : Filter) (f : Feed) : Feed := { f with vac := f.vac.set g x }

/-- A filter interval has lasted the sensor filter time (R69, R100), measured on the part's time: the model's choice
(log 35). -/
def Feed.filterDone (f : Feed) (since : Option Time) : Bool :=
  match since with
  | some t0 => decide (f.cfg.filterTime ≤ elapsed f.time t0)
  | none => false

/-- A PICK, PLACE or REJECT is in flight (R70). -/
def gripInFlight (c : Ctx) : Bool :=
  match c.flight with
  | some m => decide (m.kind ≠ .travel)
  | none => false

end Sys2Proof.Machine
end

