-- ==== Sys2Proof/Machine/Complete.lean ====
section
/-! DEFINITION. Completion records: classification, clean endings, span and drive faults, late completions and the
unsettled close (R52 to R68). -/

namespace Sys2Proof.Machine

/-! ### The unsettled close (R66, R67) -/

/-- The carry an unsettled close leaves (R66, R67). -/
def closeCarry (m : Flight) (vac : Bool) (f : Feed) (carry : Option Carry) : Option Carry :=
  match m.kind with
  | .travel => carry
  | .pick =>
    if vac then some ⟨m.tag, m.len.getD 0, if (f.findOrder m.tag).isSome then .order else .orphan⟩ else none
  | .place => if vac then carry else none
  | .reject => if vac then carry else none

/-- The station step of an unsettled close (R66, R106). -/
def closeStation (m : Flight) (f : Feed) : Feed :=
  match m.kind, m.station with
  | .place, some st => f.deliveryUnknown st
  | .place, none => f
  | .travel, _ => f
  | .pick, _ => f
  | .reject, _ => f

/-- The order step of an unsettled close (R66); a step whose order is not in the list is skipped (R67). -/
def closeOrder (m : Flight) (vac : Bool) (carry : Option Carry) (f : Feed) : Feed :=
  if vac then f
  else match m.kind with
    | .travel => f
    | .pick => f.lowerOut m.tag
    | .place => f.onOrder carry Feed.lostPanel
    | .reject => f.onOrder carry Feed.lowerOut

/-- The unsettled close of an in-flight move, with the VAC level at this moment (R66, R67). -/
def Feed.closeFlight (g : Gantry) (m : Flight) (f : Feed) : Feed :=
  let f' := closeOrder m (f.vacOf g) f.ctx[g].carry (closeStation m f)
  f'.modCtx g fun c => { c with carry := closeCarry m (f.vacOf g) f f.ctx[g].carry, flight := none }

/-! ### Clean endings (R57 to R63) -/

/-- The carry the gantry will have once the move is settled (R57 step 1, R58 to R61). -/
def settledCarry (m : Flight) (ending : Ending) (vac : Bool) (carry : Option Carry) : Option Carry :=
  match m.kind with
  | .travel => carry
  | .pick => if ending = .reached ∧ vac = true then some ⟨m.tag, m.len.getD 0, .order⟩ else none
  | .place => if ending = .reached ∧ vac = false then none else carry
  | .reject => if ending = .reached ∧ vac = false then none else carry

/-- The order and station effects of a clean PICK ending (R58). -/
def settlePick (m : Flight) (ending : Ending) (vac : Bool) (f : Feed) : Feed :=
  if ending = .reached then (if vac then f else f.mispicked m.tag) else f.lowerOut m.tag

/-- The station of an in-flight PLACE changed. -/
def atStation (m : Flight) (h : StationId → Feed → Feed) (f : Feed) : Feed :=
  match m.station with
  | some st => h st f
  | none => f

/-- The order and station effects of a clean PLACE ending (R59). -/
def settlePlace (g : Gantry) (m : Flight) (ending : Ending) (vac : Bool) (carry : Option Carry) (f : Feed) : Feed :=
  if ending = .reached then
    if vac then
      atStation m Feed.returned (atStation m (fun st => Feed.raise .placeNotReleased g.val st.val) f)
    else atStation m Feed.landed (f.onOrder carry Feed.placedPanel)
  else atStation m Feed.returned f

/-- The order effects of a clean REJECT ending (R60). -/
def settleReject (g : Gantry) (ending : Ending) (vac : Bool) (carry : Option Carry) (f : Feed) : Feed :=
  if ending = .reached then
    if vac then f.raise .rejectNotReleased g.val 0 else (f.onOrder carry Feed.lowerOut).count .rejects
  else f

/-- The order and station effects of a clean ending (R58 to R61). -/
def settleEffects (g : Gantry) (m : Flight) (ending : Ending) (vac : Bool) (carry : Option Carry) (f : Feed) : Feed :=
  match m.kind with
  | .travel => f
  | .pick => settlePick m ending vac f
  | .place => settlePlace g m ending vac carry f
  | .reject => settleReject g ending vac carry f

/-- The context of a settled move (R57 step 4). -/
def Ctx.settled (r : CompletionRec) (carry : Option Carry) (c : Ctx) : Ctx :=
  { c with state := .idle, pos := some r.reached, carry := carry, flight := none, lastDone := r.toggle, timer := false }

/-- The grip check of an IDLE context after a clean ending (R63). -/
def Feed.gripCheck (g : Gantry) (f : Feed) : Feed :=
  if f.ctx[g].carry.isSome then (if f.vacOf g then f else f.drop g)
  else if f.vacOf g then f.unexpectedGrip g else f

/-- A granted clean ending (R57 steps 4 and 5). -/
def Feed.settle (g : Gantry) (m : Flight) (r : CompletionRec) (t : Rail) (f : Feed) : Feed :=
  let carry := settledCarry m r.ending (f.vacOf g) f.ctx[g].carry
  let f' := settleEffects g m r.ending (f.vacOf g) f.ctx[g].carry (f.setRail t)
  (f'.modCtx g (·.settled r carry)).gripCheck g

/-! ### Faulty endings (R62, R64, R65) -/

/-- The position a drive reports, where it is on the rail (R62, R64, R65). -/
def reachedPos (f : Feed) (p : Nat) : Option Nat := if p < f.cfg.railLen then some p else none

/-- A span fault or a drive fault: position, halt, unsettled close, last completed toggle (R62, R64). -/
def Feed.endFaulted (g : Gantry) (m : Flight) (r : CompletionRec) (why : HaltReason) (f : Feed) : Feed :=
  let f' := (f.modCtx g fun c => { c with pos := reachedPos f r.reached }).haltCtx g why none
  (f'.closeFlight g m).modCtx g fun c => { c with lastDone := r.toggle }

/-- A late completion (R65). -/
def Feed.endLate (g : Gantry) (m : Flight) (r : CompletionRec) (f : Feed) : Feed :=
  let f' := f.modCtx g fun c => { c with pos := reachedPos f r.reached }
  (f'.closeFlight g m).modCtx g fun c => { c with lastDone := r.toggle }

/-- The span offered to the table as a shrink (R57 step 2). -/
def endingSpan (g : Gantry) (m : Flight) (r : CompletionRec) (f : Feed) : Span :=
  f.cfg.occupancy r.reached (settledCarry m r.ending (f.vacOf g) f.ctx[g].carry)

/-- The span test of a clean ending: the table after a granted shrink (R57, R62). -/
def endingRail (g : Gantry) (m : Flight) (r : CompletionRec) (f : Feed) : Option Rail :=
  if r.reached < f.cfg.railLen then shrink f.rail g (endingSpan g m r f) else none

/-- A clean ending (R57, R62). -/
def Feed.endClean (g : Gantry) (m : Flight) (r : CompletionRec) (f : Feed) : Feed :=
  match endingRail g m r f with
  | some t => f.settle g m r t
  | none => f.endFaulted g m r .span

/-! ### Classification (R54) -/

/-- The completion's toggle and kind echo are those of a move. -/
def matchesFlight (r : CompletionRec) (m : Flight) : Bool :=
  decide (r.toggle = m.toggle) && decide (r.kind = m.kind.code)

/-- The in-flight move a completion matches. -/
def matchedFlight (r : CompletionRec) (c : Ctx) : Option Flight :=
  match c.flight with
  | some m => if matchesFlight r m then some m else none
  | none => none

/-- A completion in MOVING (R54 rows 1 to 3). -/
def completeMoving (g : Gantry) (r : CompletionRec) (f : Feed) : Feed × Stamp :=
  match matchedFlight r f.ctx[g], r.ending with
  | some m, .reached => (f.endClean g m r, .taken)
  | some m, .short => (f.endClean g m r, .taken)
  | some m, .fault => (f.endFaulted g m r .driveFault, .taken)
  | some _, .unknown => (f.haltCtx g .mismatch none, .mismatch)
  | none, _ => (f.haltCtx g .mismatch none, .mismatch)

/-- A completion in IDLE (R54 rows 4 and 5). -/
def completeIdle (g : Gantry) (r : CompletionRec) (f : Feed) : Feed × Stamp :=
  if r.toggle = f.ctx[g].lastDone then (f, .duplicate) else (f.haltCtx g .mismatch none, .mismatch)

/-- A completion in HALTED (R54 rows 6 and 7). -/
def completeHalted (g : Gantry) (r : CompletionRec) (f : Feed) : Feed × Stamp :=
  match matchedFlight r f.ctx[g] with
  | some m => (f.endLate g m r, .late)
  | none => (f.furtherFault g .mismatch, .mismatch)

/-- A completion taken at gantry g's context: its effects and its stamp (R54). -/
def complete (g : Gantry) (r : CompletionRec) (f : Feed) : Feed × Stamp :=
  match f.ctx[g].state with
  | .moving => completeMoving g r f
  | .idle => completeIdle g r f
  | .halted => completeHalted g r f

end Sys2Proof.Machine
end

