-- ==== Sys2Proof/Machine/Orders.lean ====
section
/-! DEFINITION. Admission of orders (R77 to R81) and their cancelling (R88, R89). -/

namespace Sys2Proof.Machine

/-- The tag is the order tag of an in-flight PICK of a context (R78). -/
def pickOf (c : Ctx) (tag : Nat) : Bool :=
  match c.flight with
  | some m => decide (m.kind = .pick ∧ m.tag = tag)
  | none => false

/-- The first test of R78 that an admission request fails. -/
def orderRefusal (r : OrderRec) (f : Feed) : Option OrderRefusal :=
  if r.tag = 0 ∨ (f.findOrder r.tag).isSome ∨ pickOf f.ctx[0] r.tag = true ∨ pickOf f.ctx[1] r.tag = true then
    some .dupTag
  else if f.cfg.stackCount ≤ r.stack then some .badStack
  else if f.cfg.stationCount ≤ r.station then some .badStation
  else if r.len < 200 ∨ f.cfg.cmax < r.len then some .badLength
  else if r.batch = 0 ∨ 8 < r.batch then some .badBatch
  else if r.dep ≠ 0 ∧ (r.dep = r.tag ∨ (f.findOrder r.dep).isNone) then some .badDependency
  else none

/-- The entry of an admitted record (R81). The indices have passed the tests of R78 against counts of at most 4 and
6. -/
def newOrder (r : OrderRec) : Order where
  tag := r.tag
  stack := Fin.ofNat 4 r.stack
  station := Fin.ofNat 6 r.station
  len := r.len
  batch := r.batch
  remaining := r.batch
  out := 0
  mispicks := 0
  dep := r.dep
  fault := none

/-- The outcome of an admission request (R77). -/
inductive Admission where
  | refused (why : OrderRefusal)
  | full
  | admitted
  deriving DecidableEq, Repr

/-- The decision on an admission request: the tests before the capacity (R78, R80, R81). -/
def admission (r : OrderRec) (f : Feed) : Admission :=
  match orderRefusal r f with
  | some why => .refused why
  | none => if Config.listCapacity ≤ f.orders.length then .full else .admitted

/-- The admission itself (R81). -/
def Feed.enlist (r : OrderRec) (f : Feed) : Feed := { f with orders := f.orders ++ [newOrder r] }

/-- The context's in-flight move concerns the order: a PICK, PLACE or REJECT with its tag (R88). -/
def flightConcerns (c : Ctx) (tag : Nat) : Bool :=
  match c.flight with
  | some m => decide (m.kind ≠ .travel ∧ m.tag = tag)
  | none => false

/-- An ORDER carry becomes an ORPHAN carry, with its event (R89, R91). -/
def Feed.orphan (g : Gantry) (why : OrphanWhy) (f : Feed) : Feed :=
  (f.setCarry g (f.ctx[g].carry.map fun k => { k with kind := .orphan })).raise .orphan g.val why.code

/-- The ORDER carry of a cancelled tag is orphaned (R89 step 1). -/
def Feed.orphanIf (g : Gantry) (tag : Nat) (f : Feed) : Feed :=
  if orderTag f.ctx[g].carry = some tag then f.orphan g .cancelled else f

/-- CANCEL_ORDER taken in RUN (R88, R89). Where both gantries carry a panel of the order, gantry 0's ORPHAN event is the
first: the model's choice (log 34). -/
def cancelOrder (a : Nat) (f : Feed) : Feed × Result :=
  if a = 0 ∨ (f.findOrder a).isNone then (f, .notFound)
  else if flightConcerns f.ctx[0] a ∨ flightConcerns f.ctx[1] a then (f, .busy)
  else
    let f' := (f.orphanIf 0 a).orphanIf 1 a
    ({ f' with orders := removeOrder a f'.orders }, .done)

end Sys2Proof.Machine
end

