-- ==== Sys2Proof/Machine/Recovery.lean ====
section
/-! DEFINITION. CLEAR_HALT (R124 to R127), RESET_FEED (R131 to R133) and ACK_EVENTS (R161). -/

namespace Sys2Proof.Machine

/-! ### CLEAR_HALT -/

/-- The tests of R124 on an enabled context. -/
def clearRefusal (g : Gantry) (b : Option Nat) (f : Feed) : Option Result :=
  if f.ctx[g].state ≠ .halted then some .notHalted
  else match b with
    | none => if f.ctx[g].pos = none ∨ f.ctx[g].flight.isSome then some .needPosition else none
    | some p => if f.cfg.railLen ≤ p then some .badOperand else none

/-- Settlement step 1: a move in flight is closed (R125). -/
def Feed.settleClose (g : Gantry) (f : Feed) : Feed :=
  match f.ctx[g].flight with
  | some m => f.closeFlight g m
  | none => f

/-- Settlement step 2: the position given is taken (R125). -/
def Feed.settlePos (g : Gantry) (b : Option Nat) (f : Feed) : Feed :=
  match b with
  | some p => f.modCtx g fun c => { c with pos := some p }
  | none => f

/-- Settlement step 3: the carry is made to agree with the grip (R125). -/
def Feed.settleGrip (g : Gantry) (f : Feed) : Feed :=
  if f.ctx[g].carry.isSome then
    if f.vacOf g then f else (f.setCarry g none).onOrder f.ctx[g].carry Feed.lostPanel
  else if f.vacOf g then f.setCarry g (some (unknownCarry f.cfg)) else f

/-- A fall of VAC that row 1 of R128 speaks of is due and not yet taken: the gantry carries, no PICK, PLACE or REJECT is
in flight, and the raw level has stood low for the filter time (R69). -/
def Feed.fallDue (g : Gantry) (f : Feed) : Bool :=
  f.ctx[g].carry.isSome && !gripInFlight f.ctx[g] && f.vacOf g && f.filterDone f.vac[g].since

/-- A fall due that meets a CLEAR_HALT taken first: the grip step reads VAC low, and the fall has no effect after it (R128,
row 1; log 36). -/
def Feed.settleFall (g : Gantry) (f : Feed) : Feed := if f.fallDue g then f.setVac g ⟨false, none⟩ else f

/-- The settlement of a CLEAR_HALT (R125, R128). -/
def Feed.settleHalt (g : Gantry) (b : Option Nat) (f : Feed) : Feed :=
  (((f.settleFall g).settleClose g).settlePos g b).settleGrip g

/-- The span of the reseat: at the known position for the carry the settlement left (R126). -/
def reseatSpan (g : Gantry) (f : Feed) : Span := f.cfg.occupancy (f.ctx[g].pos.getD 0) f.ctx[g].carry

/-- The context of a cleared halt (R127). -/
def Ctx.cleared (c : Ctx) : Ctx := { c with state := .idle, halt := none, memRun := 0 }

/-- The detail of HALT_CLEARED: the first reason of the halt record removed (R127). -/
def haltCode (c : Ctx) : Nat := (c.halt.map (·.reason.code)).getD 0

/-- A CLEAR_HALT whose reseat is granted (R127). -/
def Feed.clearDone (g : Gantry) (t : Rail) (f : Feed) : Feed :=
  ((f.setRail t).modCtx g Ctx.cleared).raise .haltCleared g.val (haltCode f.ctx[g])

/-- The reseat of a settled context (R126). -/
def Feed.reseatHalt (g : Gantry) (f : Feed) : Feed × Result :=
  match reseat f.rail g (reseatSpan g f) with
  | .granted t => (f.clearDone g t, .done)
  | .conflict => (f, .conflict)
  | .crossed => (f, .crossed)

/-- CLEAR_HALT of a gantry taken in RUN (R124 to R127). -/
def clearHaltOf (g : Gantry) (b : Option Nat) (f : Feed) : Feed × Result :=
  match clearRefusal g b f with
  | some res => (f, res)
  | none => (f.settleHalt g b).reseatHalt g

/-- CLEAR_HALT taken in RUN: operand A names an enabled context (R124). -/
def clearHalt (a : Nat) (b : Option Nat) (f : Feed) : Feed × Result :=
  if h : a < 2 ∧ a < f.cfg.gantryCount then clearHaltOf ⟨a, h.1⟩ b f else (f, .badOperand)

/-! ### RESET_FEED -/

/-- An ORDER carry is orphaned by RESET_FEED (R91). -/
def Feed.orphanAny (g : Gantry) (f : Feed) : Feed :=
  if (orderTag f.ctx[g].carry).isSome then f.orphan g .feedReset else f

/-- Step 1: the list is emptied and ORDER carries become ORPHAN (R91, R133). -/
def Feed.dropOrders (f : Feed) : Feed := (({ f with orders := [] } : Feed).orphanAny 0).orphanAny 1

/-- A station in the middle of a placement (R133). -/
def midPlacement (x : Station) : Bool := decide (x.state = .assigned ∨ x.state = .landing)

/-- A station in ASSIGNED or LANDING goes to FAULT (R133). -/
def Feed.resetStation (f : Feed) (st : StationId) : Feed :=
  if f.stationOn st = true ∧ midPlacement f.stations[st] = true then f.faultStation st .feedReset else f

/-- Step 2: the stations in ascending index (R131, R133). -/
def Feed.resetStations (f : Feed) : Feed := ([0, 1, 2, 3, 4, 5] : List StationId).foldl Feed.resetStation f

/-- An enabled context is halted, or its halt record replaced (R132). -/
def Feed.resetCtx (g : Gantry) (f : Feed) : Feed := if f.gantryOn g then f.haltCtx g .feedReset none else f

/-- RESET_FEED taken in RUN (R131 to R133). -/
def resetFeed (f : Feed) : Feed := (f.dropOrders.resetStations.resetCtx 0).resetCtx 1

/-! ### ACK_EVENTS -/

/-- ACK_EVENTS taken in RUN (R161). -/
def ackEvents (a : Nat) (f : Feed) : Feed × Result :=
  if f.ringCap ≤ a then (f, .badIndex)
  else if f.unacked < (a + f.ringCap - f.cons) % f.ringCap then (f, .badIndex)
  else ({ f with cons := a }, .done)

end Sys2Proof.Machine
end

