-- ==== Sys2Proof/Machine/Memory.lean ====
section
/-! DEFINITION. Job memory behind the memory port: bytes and parity bits as canonical lists, words built from bytes in
one place (R171, chapter 11). -/

namespace Sys2Proof.Machine

/-- What a list holds at a key, where an unlisted key reads as d. -/
def lookupAt {α : Type} (d : α) : List (Nat × α) → Nat → α
  | [], _ => d
  | (a, v) :: rest, k => if a = k then v else lookupAt d rest k

/-- The list with v stored at key k, kept canonical: storing d removes the entry. -/
def storeAt {α : Type} [DecidableEq α] (d : α) (k : Nat) (v : α) : List (Nat × α) → List (Nat × α)
  | [] => if v = d then [] else [(k, v)]
  | (a, w) :: rest =>
    if k < a then (if v = d then (a, w) :: rest else (k, v) :: (a, w) :: rest)
    else if k = a then (if v = d then rest else (k, v) :: rest)
    else (a, w) :: storeAt d k v rest

/-- Keys strictly rising, and no entry equal to what an unlisted key reads as. -/
def canonical {α : Type} [DecidableEq α] (d : α) : List (Nat × α) → Bool
  | [] => true
  | (a, v) :: rest => decide (v ≠ d) && rest.all (fun e => decide (a < e.1)) && canonical d rest

/-- What an unlisted byte of job memory reads as (log 3, DESIGN CHOICE). -/
def unlistedByte : Byte := 0

/-- The canonical form of job memory. -/
def Memory.wf (m : Memory) : Bool := canonical unlistedByte m.bytes && canonical false m.badParity

/-- One byte of job memory. -/
def Memory.readByte (m : Memory) (a : Nat) : Byte := lookupAt unlistedByte m.bytes a

/-- Whether the parity bit kept with the word at an address is the wrong one. -/
def Memory.badAt (m : Memory) (a : Nat) : Bool := lookupAt false m.badParity a

/-- The word at an address: byte j of the word is the byte at a + j (R171). -/
def Memory.readData (m : Memory) (a : Nat) : Word :=
  m.readByte (a + 3) ++ m.readByte (a + 2) ++ m.readByte (a + 1) ++ m.readByte a

/-- The word at an address with the parity bit memory kept with it (log 4). -/
def Memory.readWord (m : Memory) (a : Nat) : PWord :=
  ⟨m.readData a, parityBit (m.readData a) ^^ m.badAt a⟩

/-- Byte j of a word (R171). -/
def byteOf (w : Word) (j : Nat) : Byte := w.extractLsb' (8 * j) 8

/-- A word stored with its parity bit as received (R145, log 4). -/
def Memory.writeWord (m : Memory) (a : Nat) (p : PWord) : Memory where
  bytes := storeAt unlistedByte (a + 3) (byteOf p.data 3) (storeAt unlistedByte (a + 2) (byteOf p.data 2)
    (storeAt unlistedByte (a + 1) (byteOf p.data 1) (storeAt unlistedByte a (byteOf p.data 0) m.bytes)))
  badParity := storeAt false a (!parityOk p) m.badParity

/-- The words at n ascending word addresses from a (R137). -/
def Memory.readWords (m : Memory) (a : Nat) : Nat → List PWord
  | 0 => []
  | n + 1 => m.readWord a :: m.readWords (a + 4) n

/-- Words stored at ascending word addresses from a (R137). -/
def Memory.writeWords (m : Memory) (a : Nat) : List PWord → Memory
  | [] => m
  | p :: ps => (m.writeWord a p).writeWords (a + 4) ps

/-- The words of a read as memory answers it: what it holds, but for the words it returns otherwise (log 5). -/
def upsetWords (ups : List Upset) (ws : List PWord) : List PWord :=
  ws.mapIdx fun i w => ((ups.find? fun u => u.index.val == i).map (·.word)).getD w

/-- The words that stand at the place of a write answered FAULT: free values (R81, R160; log 6). -/
def faultedWords (count : Nat) (ws : List PWord) : List PWord :=
  ws.mapIdx fun i _ => ⟨Config.faultedWord count i, Config.faultedParity count i⟩

/-- Memory after a write abandoned by RESET_N: each word may or may not have landed (R154; log 7). -/
def Memory.abandonWords (m : Memory) (count : Nat) : (i : Nat) → (a : Nat) → List PWord → Memory
  | _, _, [] => m
  | i, a, p :: ps =>
    (if Config.abandonedLanded count i then m.writeWord a p else m).abandonWords count (i + 1) (a + 4) ps

end Sys2Proof.Machine
end

