-- ==== Sys2Proof/Machine/Settings.lean ====
section
/-! DEFINITION. The settings image: its layout (section 11.5), its CRC (R171), its validation (R170, R175), and the
entries into LOCKED and RUN and the reload (R24, R98, R176 to R179). -/

namespace Sys2Proof.Machine

/-! ### Layout (section 11.5) -/

/-- A window word: base in bits 0 to 23, slot count in bits 24 to 31. -/
def windowOf (w : Word) : Window := ⟨field w 0 24, field w 24 8⟩

/-- The settings fields of the 64 words of an image. -/
def Settings.ofImage (ws : List Word) : Settings where
  magic := field (wordAt ws 0) 0 16
  version := field (wordAt ws 0) 16 8
  gantryCount := field (wordAt ws 1) 0 8
  stationCount := field (wordAt ws 1) 8 8
  stackCount := field (wordAt ws 1) 16 8
  cellCount := field (wordAt ws 1) 24 8
  cellLen := field (wordAt ws 2) 0 16
  halfWidth := field (wordAt ws 2) 16 16
  margin := field (wordAt ws 3) 0 16
  cmax := field (wordAt ws 3) 16 16
  stackPos := Vector.ofFn fun k : Fin 4 => field (wordAt ws (4 + k.val)) 0 24
  stationPos := Vector.ofFn fun k : Fin 6 => field (wordAt ws (8 + k.val)) 0 24
  bayPos := field (wordAt ws 14) 0 24
  guardTime := Vector.ofFn fun k : Fin 6 => field (wordAt ws (15 + k.val / 2)) (16 * (k.val % 2)) 16
  landingTimeout := field (wordAt ws 18) 0 16
  moveTimeout := field (wordAt ws 18) 16 8
  filterTime := field (wordAt ws 18) 24 8
  threshold := field (wordAt ws 19) 0 8
  bound := field (wordAt ws 19) 8 8
  driveTag := Vector.ofFn fun k : Fin 2 => BitVec.ofNat 3 (field (wordAt ws 19) (16 + 4 * k.val) 3)
  sawTag := Vector.ofFn fun k : Fin 6 => BitVec.ofNat 3 (field (wordAt ws 20) (4 * k.val) 3)
  orderWin := windowOf (wordAt ws 21)
  moveWin := Vector.ofFn fun k : Fin 2 => windowOf (wordAt ws (22 + k.val))
  completionWin := Vector.ofFn fun k : Fin 2 => windowOf (wordAt ws (24 + k.val))
  reportBase := Vector.ofFn fun k : Fin 6 => field (wordAt ws (26 + k.val)) 0 24
  noticeBase := Vector.ofFn fun k : Fin 6 => field (wordAt ws (32 + k.val)) 0 24
  ringBase := field (wordAt ws 38) 0 24
  ringLog := field (wordAt ws 38) 24 8

/-! ### CRC (R171) -/

/-- One bit of the check: generator x^16 + x^12 + x^5 + 1. -/
def crcBit (c : BitVec 16) : BitVec 16 := if c.msb then (c <<< 1) ^^^ 0x1021#16 else c <<< 1

/-- One byte of the check, most significant bit first. -/
def crcByte (c : BitVec 16) (b : Byte) : BitVec 16 :=
  let c := c ^^^ (b.setWidth 16 <<< 8)
  crcBit (crcBit (crcBit (crcBit (crcBit (crcBit (crcBit (crcBit c)))))))

/-- The check over bytes in ascending address order, from 0xFFFF, neither reflected nor complemented. -/
def crc16 (bs : List Byte) : BitVec 16 := bs.foldl crcByte 0xFFFF#16

/-- The bytes of words, least significant first (R171). -/
def bytesOf (ws : List Word) : List Byte := ws.flatMap fun w => [byteOf w 0, byteOf w 1, byteOf w 2, byteOf w 3]

/-- The CRC field of an image agrees with its bytes 0 to 251 (R171). -/
def crcOk (ws : List Word) : Bool := decide ((crc16 (bytesOf (ws.take 63))).toNat = field (wordAt ws 63) 0 16)

/-! ### Validation (R170, R175) -/

/-- The enabled gantries of some settings. -/
def Settings.gantries (c : Settings) : List Gantry := (List.finRange 2).filter fun g => decide (g.val < c.gantryCount)

/-- The enabled stations of some settings. -/
def Settings.stations (c : Settings) : List StationId := (List.finRange 6).filter fun s => decide (s.val < c.stationCount)

/-- The enabled stacks of some settings. -/
def Settings.stacks (c : Settings) : List (Fin 4) := (List.finRange 4).filter fun k => decide (k.val < c.stackCount)

/-- A value lies in an inclusive range. -/
def inRange (lo hi n : Nat) : Bool := decide (lo ≤ n ∧ n ≤ hi)

/-- The examined windows whose slot count is a setting: ORDER, MOVE and COMPLETION (R170). -/
def Settings.countedWindows (c : Settings) : List Window :=
  c.orderWin :: (c.gantries.map fun g => c.moveWin[g]) ++ (c.gantries.map fun g => c.completionWin[g])

/-- Every examined window (R170): REPORT and NOTICE windows have one slot, the ring C slots. -/
def Settings.windows (c : Settings) : List Window :=
  c.countedWindows ++ (c.stations.map fun s => ⟨c.reportBase[s], 1⟩) ++ (c.stations.map fun s => ⟨c.noticeBase[s], 1⟩)
    ++ [⟨c.ringBase, 2 ^ c.ringLog⟩]

/-- A window is present (R170). -/
def Window.present (w : Window) : Bool := decide (w.base ≠ 0)

/-- The first byte after a window: 16 bytes a slot (R170). -/
def Window.stop (w : Window) : Nat := w.base + 16 * w.slots

/-- Test 3 (R175). -/
def formatOk (c : Settings) : Bool := decide (c.magic = 0x5762 ∧ c.version = 1)

/-- The scalar fields of test 4 (R170, R175). -/
def scalarsOk (c : Settings) : Bool :=
  inRange 1 2 c.gantryCount && inRange 1 6 c.stationCount && inRange 1 4 c.stackCount && inRange 8 64 c.cellCount &&
  inRange 100 2000 c.cellLen && decide (c.railLen ≤ 128000) && inRange 100 1500 c.halfWidth &&
  inRange 0 1000 c.margin && inRange 200 3200 c.cmax && (c.stations.all fun s => inRange 0 10000 c.guardTime[s]) &&
  inRange 100 10000 c.landingTimeout && inRange 1 255 c.moveTimeout && inRange 1 50 c.filterTime &&
  inRange 1 15 c.threshold && inRange 2 64 c.bound && inRange 4 8 c.ringLog

/-- The window fields of test 4 (R175; log 24). -/
def windowsOk (c : Settings) : Bool :=
  (c.countedWindows.all fun w => inRange 4 64 w.slots) &&
  c.windows.all fun w => !w.present || (decide (w.base % 16 = 0) && decide (w.stop ≤ 2 ^ 24))

/-- Test 4 (R175). -/
def rangeOk (c : Settings) : Bool := scalarsOk c && windowsOk c

/-- Test 5 (R175). -/
def geometryOk (c : Settings) : Bool :=
  (c.stacks.all fun k => decide (c.stackPos[k] < c.railLen)) &&
  (c.stations.all fun s => decide (c.stationPos[s] < c.railLen)) && decide (c.bayPos < c.railLen) &&
  c.windows.all Window.present

/-- Two windows share no byte. -/
def apart (a b : Window) : Bool := decide (a.stop ≤ b.base ∨ b.stop ≤ a.base)

/-- Every window of a list is apart from every later one. -/
def allApart : List Window → Bool
  | [] => true
  | w :: rest => rest.all (apart w) && allApart rest

/-- Test 6 (R175): the present windows and the 512-byte anchor block. -/
def overlapOk (anchor : Nat) (c : Settings) : Bool := allApart (⟨anchor, 32⟩ :: c.windows.filter Window.present)

/-- Test 7 (R175). -/
def tagsOk (lcTag : MasterTag) (c : Settings) : Bool :=
  (c.gantries.all fun g => decide (c.driveTag[g] ≠ lcTag)) &&
  (c.gantries.all fun g => c.gantries.all fun k => decide (g = k ∨ c.driveTag[g] ≠ c.driveTag[k])) &&
  c.stations.all fun s => c.gantries.all fun g => decide (c.sawTag[s] ≠ c.driveTag[g])

/-- Tests 2 to 7 on a whole image: the first that fails gives the code (R175). -/
def validate (anchor : Nat) (lcTag : MasterTag) (ws : List Word) : LoadFault :=
  let c := Settings.ofImage ws
  if !crcOk ws then .crc
  else if !formatOk c then .format
  else if !rangeOk c then .range
  else if !geometryOk c then .geometry
  else if !overlapOk anchor c then .overlap
  else if !tagsOk lcTag c then .tags
  else .none

/-! ### Entering LOCKED and RUN -/

/-- Every table of the feed side at its power-on values (R3, R23, R69, R75, R97, R129, R159). -/
def Feed.powerOn (f : Feed) : Feed :=
  { f with
    rail := freeRail
    ctx := .replicate 2 (.powerOn f.time)
    vac := .replicate 2 ⟨false, none⟩
    orders := []
    stations := .replicate 6 .powerOn
    blockReport := .armed
    notices := []
    events := []
    prod := 0
    cons := 0 }

/-- Entering LOCKED (R176): the part keeps no settings. -/
def Feed.enterLocked (code : LoadFault) (f : Feed) : Feed :=
  { f.powerOn with part := .locked, loadFault := code, cfg := .unset }

/-- A context carried through a RELOAD_SETTINGS (R24). -/
def Ctx.reloaded (railLen : Nat) (t : Time) (c : Ctx) : Ctx :=
  { Ctx.powerOn t with
    halt := some ⟨.reload, none, t, 0⟩
    pos := c.pos.filter fun p => decide (p < railLen)
    expected := c.expected
    lastDone := c.lastDone }

/-- A context on entering RUN (R24): kept is whether the start cause is RELOAD and the old settings enabled it. -/
def runCtx (on kept : Bool) (railLen : Nat) (t : Time) (c : Ctx) : Ctx :=
  if on && kept then c.reloaded railLen t else .powerOn t

/-- A station entry kept through a RELOAD_SETTINGS (R98). -/
def Station.kept (x : Station) : Station :=
  { Station.powerOn with
    reportToggle := x.reportToggle
    noticeToggle := x.noticeToggle
    noticeTag := x.noticeTag
    noticeBatch := x.noticeBatch }

/-- An enabled station with PRESENT taken from its raw level: BLOCKED where it is high (R98). -/
def Station.sensed (raw : Bool) (x : Station) : Station :=
  if raw then { x with present := true, state := .blocked, reason := some .unexpectedPanel }
  else { x with present := false, state := .empty }

/-- A station on entering RUN (R98). -/
def runStation (on kept raw : Bool) (x : Station) : Station :=
  if on then (if kept then x.kept else .powerOn).sensed raw else .powerOn

/-- Entering RUN with new settings (R177; R1, R3, R24, R25, R69, R75, R98, R129, R159). -/
def Feed.enterRun (c : Settings) (vacRaw : Vector Bool 2) (presentRaw : Vector Bool 6) (f : Feed) : Feed :=
  let kept := decide (f.cause = .reload)
  Feed.raise .settingsLoaded 15 f.cause.code
    { f with
      part := .run
      loadFault := .none
      cfg := c
      rail := freeRail
      ctx := Vector.ofFn fun g : Fin 2 =>
        runCtx (decide (g.val < c.gantryCount)) (kept && f.gantryOn g) c.railLen f.time f.ctx[g]
      vac := Vector.ofFn fun g : Fin 2 => ⟨decide (g.val < c.gantryCount) && vacRaw[g], none⟩
      orders := []
      stations := Vector.ofFn fun s : Fin 6 =>
        runStation (decide (s.val < c.stationCount)) (kept && f.stationOn s) presentRaw[s] f.stations[s]
      blockReport := .armed
      notices := []
      events := []
      prod := 0
      cons := 0 }

/-! ### RELOAD_SETTINGS (R178, R179) -/

/-- A context with a move in flight or a carry (R178). -/
def ctxBusy (c : Ctx) : Bool := c.flight.isSome || c.carry.isSome

/-- A station with a panel on its way (R178). -/
def stationBusy (x : Station) : Bool :=
  decide (x.state = .assigned ∨ x.state = .landing ∨ x.state = .loaded ∨ x.state = .feeding)

/-- RELOAD_SETTINGS in RUN is refused BUSY (R178). -/
def reloadBusy (f : Feed) : Bool :=
  !f.orders.isEmpty || ((List.finRange 2).any fun g => f.gantryOn g && ctxBusy f.ctx[g]) ||
    (List.finRange 6).any fun s => f.stationOn s && stationBusy f.stations[s]

/-- A RELOAD_SETTINGS taken: the ring and the claim table are emptied, the sensors are no longer acted on and the part
enters START (R179; log 19, log 30). -/
def Feed.reload (f : Feed) : Feed :=
  { f with
    part := .start
    cause := if f.part = .locked then .locked else .reload
    rail := freeRail
    vac := .replicate 2 ⟨false, none⟩
    stations := Vector.ofFn fun s : Fin 6 =>
      { f.stations[s] with present := false, presentSince := none, guardStart := none }
    notices := []
    events := []
    prod := 0
    cons := 0 }

end Sys2Proof.Machine
end

