-- ==== Sys2Proof/Machine/Stations.lean ====
section
/-! DEFINITION. Saw reports (R112, R113), filtered PRESENT changes (R101, R102) and UNBLOCK_STATION (R117). -/

namespace Sys2Proof.Machine

/-- The effect of a report taken (R113), its saw state already recorded. -/
def Feed.reported (st : StationId) (saw : Saw) (f : Feed) : Feed :=
  match saw with
  | .busy =>
    if f.stations[st].state = .loaded then f.modStation st fun x => { x with state := .feeding } else f
  | .clear =>
    if f.stations[st].state = .feeding ∧ f.stations[st].present = false then f.toGuard st else f
  | .fault => if f.stations[st].state = .fault then f else f.faultStation st .sawFault

/-- A report at its station: a duplicate, or taken (R112). -/
def report (st : StationId) (r : ReportRec) (f : Feed) : Feed × Stamp :=
  if r.toggle = f.stations[st].reportToggle then (f, .duplicate)
  else ((f.modStation st fun x => { x with reportToggle := r.toggle, saw := r.saw }).reported st r.saw, .taken)

/-- The PRESENT level set by a filtered change, its interval ended (R100). -/
def Feed.setPresent (st : StationId) (level : Bool) (f : Feed) : Feed :=
  f.modStation st fun x => { x with present := level, presentSince := none }

/-- The further effect of a filtered rise (R101). -/
def Feed.presentRisen (st : StationId) (f : Feed) : Feed :=
  match f.stations[st].state with
  | .empty => f.blockStation st .unexpectedPanel
  | .guard => f.blockStation st .unexpectedPanel
  | .assigned => f.modStation st fun x => { x with early := true }
  | .landing => f.modStation st fun x => { x with state := .loaded, landingStart := none }
  | .loaded => f
  | .feeding => f
  | .blocked => f
  | .fault => f

/-- The further effect of a filtered fall (R102). -/
def Feed.presentFallen (st : StationId) (f : Feed) : Feed :=
  match f.stations[st].state with
  | .empty => f
  | .guard => f
  | .landing => f
  | .assigned => f.modStation st fun x => { x with early := false }
  | .loaded => f.blockStation st .removed
  | .feeding => if f.stations[st].saw = .clear then f.toGuard st else f
  | .blocked => f
  | .fault => f

/-- The context has an in-flight PLACE to the station (R117). -/
def placeTo (c : Ctx) (st : StationId) : Bool :=
  match c.flight with
  | some m => decide (m.kind = .place ∧ m.station = some st)
  | none => false

/-- A BLOCKED or FAULT station returned to EMPTY (R117). -/
def Feed.unblock (st : StationId) (f : Feed) : Feed :=
  f.modStation st fun x => { x with state := .empty, reason := none, early := false }

/-- The tests of R117 on a station of the table. -/
def unblockResult (st : StationId) (f : Feed) : Result :=
  if f.stations[st].state ≠ .blocked ∧ f.stations[st].state ≠ .fault then .badOperand
  else if f.stations[st].present then .stillPresent
  else if placeTo f.ctx[0] st ∨ placeTo f.ctx[1] st then .busy
  else if f.stations[st].saw = .fault then .sawFault
  else .done

/-- UNBLOCK_STATION taken in RUN (R117). -/
def unblockStation (a : Nat) (f : Feed) : Feed × Result :=
  if h : a < 6 ∧ a < f.cfg.stationCount then
    match unblockResult ⟨a, h.1⟩ f with
    | .done => (f.unblock ⟨a, h.1⟩, .done)
    | res => (f, res)
  else (f, .badOperand)

end Sys2Proof.Machine
end

