-- ==== Sys2Proof/Machine/Control.lean ====
section
/-! DEFINITION. The control mailbox: what a control command does in each part state (R156, R157, R178). -/

namespace Sys2Proof.Machine

/-- RELOAD_SETTINGS taken in RUN or LOCKED (R178, R179): in LOCKED it is always taken. -/
def reloadSettings (f : Feed) : Feed × Result :=
  if f.part = .run ∧ reloadBusy f = true then (f, .busy) else (f.reload, .done)

/-- A command taken in RUN (the table of R157). -/
def commandRun (c : ControlFields) (f : Feed) : Feed × Result :=
  match c.command with
  | .clearHalt => clearHalt c.opA c.opB f
  | .cancelOrder => cancelOrder c.opA f
  | .unblockStation => unblockStation c.opA f
  | .ackEvents => ackEvents c.opA f
  | .resetFeed => (resetFeed f, .done)
  | .reloadSettings => reloadSettings f
  | .unknown => (f, .unknown)

/-- A command taken in LOCKED (R157). -/
def commandLocked (c : ControlFields) (f : Feed) : Feed × Result :=
  match c.command with
  | .reloadSettings => reloadSettings f
  | .clearHalt => (f, .locked)
  | .cancelOrder => (f, .locked)
  | .unblockStation => (f, .locked)
  | .ackEvents => (f, .locked)
  | .resetFeed => (f, .locked)
  | .unknown => (f, .locked)

/-- A control command by the part state when it is taken; none is RETRY (R157). -/
def command (c : ControlFields) (f : Feed) : Option (Feed × Result) :=
  match f.part with
  | .start => none
  | .locked => some (commandLocked c f)
  | .run => some (commandRun c f)

/-- The command is a RELOAD_SETTINGS that was taken (R179). -/
def tookReload (c : ControlFields) (res : Result) : Bool := decide (c.command = .reloadSettings ∧ res = .done)

end Sys2Proof.Machine
end

