-- ==== Sys2Proof/Machine/Decoder.lean ====
section
/-! DEFINITION. The window decoder and the upstream port's tests (R139 to R145). -/

namespace Sys2Proof

/-- The number of words of a transaction (R137). -/
def TxnOp.len : TxnOp → Nat
  | .read n => n
  | .write ws => ws.length

/-- Exactly one record on a slot boundary (R141). Every area begins on a 16-byte boundary (R139, R170). -/
def Txn.oneRecord (t : Txn) : Bool := decide (t.op.len = 4 ∧ t.addr.toNat % 16 = 0)

end Sys2Proof

namespace Sys2Proof.Machine

/-- The anchor base: the BASE straps x 1 MiB (R169). -/
def State.anchor (s : State) : Nat := s.base.toNat * 2 ^ 20

/-- First bytes of the status record and of the control mailbox (R139, R169). -/
def State.statusBase (s : State) : Nat := s.anchor + 256
def State.controlBase (s : State) : Nat := s.anchor + 384

/-- An address lies in a window. -/
def Window.has (w : Window) (a : Nat) : Bool := decide (w.base ≤ a ∧ a < w.base + 16 * w.slots)

/-- The configured windows with the areas they are (R139): those of enabled gantries and stations only. -/
def Settings.areas (c : Settings) : List (Window × Area) :=
  [(c.orderWin, .order), (⟨c.ringBase, 2 ^ c.ringLog⟩, .event)] ++
  (((List.finRange 2).filter fun g => decide (g.val < c.gantryCount)).flatMap fun g =>
    [(c.moveWin[g], .move g), (c.completionWin[g], .completion g)]) ++
  (((List.finRange 6).filter fun s => decide (s.val < c.stationCount)).flatMap fun s =>
    [(⟨c.reportBase[s], 1⟩, .report s), (⟨c.noticeBase[s], 1⟩, .notice s)])

/-- The watched area an address lies in, of those the part state calls for (R139). -/
def State.areaAt (s : State) (a : Nat) : Option Area :=
  if s.anchor ≤ a ∧ a < s.statusBase then some .settings
  else if s.statusBase ≤ a ∧ a < s.controlBase then some .status
  else if s.controlBase ≤ a ∧ a < s.anchor + 512 then some .control
  else if s.feed.part = .run then (s.feed.cfg.areas.find? fun w => w.1.has a).map (·.2)
  else none

/-- The areas of a transaction's words, in ascending address order (R139). A word counts by the address it is presented
at, also where that is misaligned (log 18). -/
def State.wordAreas (s : State) (t : Txn) : List (Option Area) :=
  (List.range t.op.len).map fun i => s.areaAt (t.addr.toNat + 4 * i)

/-- R140: a misaligned address, a burst beyond the address space, or words in two decoded areas or in and outside
one. -/
def State.breaksAlign (s : State) (t : Txn) : Bool :=
  decide (t.addr.toNat % 4 ≠ 0) || decide (2 ^ 24 < t.addr.toNat + 4 * t.op.len) ||
    !(s.wordAreas t).all fun a => decide (a = s.areaAt t.addr.toNat)

/-- The area an ALIGN refusal concerns: that of the first word that is watched (R140). -/
def State.alignArea (s : State) (t : Txn) : Option Area := (s.wordAreas t).findSome? id

/-- The write owner of an area (R141); a part-owned area has none. -/
def State.owner (s : State) : Area → Option MasterTag
  | .settings => some s.lcTag
  | .status => none
  | .control => some s.lcTag
  | .order => some s.lcTag
  | .move _ => some s.lcTag
  | .completion g => some s.feed.cfg.driveTag[g]
  | .report st => some s.feed.cfg.sawTag[st]
  | .notice _ => none
  | .event => none

/-- The area's owner writes must be exactly one record (R141). -/
def Area.sized : Area → Bool
  | .settings => false
  | .status => false
  | .control => true
  | .order => true
  | .move _ => true
  | .completion _ => true
  | .report _ => true
  | .notice _ => false
  | .event => false

/-- What the upstream port does with a transaction it takes. -/
inductive Route where
  | addrParity
  | align (area : Option Area)
  | refuse (why : Refuse) (area : Area)
  | take (area : Area) (words : List Word)
  | status
  | judged (g : Gantry)
  | raw
  deriving DecidableEq, Repr

/-- Tests 3 to 6 of R142 on a WRITE that falls in one watched area. -/
def State.routeWrite (s : State) (t : Txn) (a : Area) (ws : List PWord) : Route :=
  match s.owner a with
  | none => .refuse .partOwned a
  | some tag =>
    if t.tag ≠ tag then .refuse .tag a
    else if a.sized && !t.oneRecord then .refuse .align a
    else if !ws.all parityOk then .refuse .parity a
    else .take a (ws.map (·.data))

/-- A READ that falls in one watched area (R141): status reads, the drive's own MOVE reads (test 5), and raw reads. -/
def State.routeRead (s : State) (t : Txn) : Area → Route
  | .status => .status
  | .move g =>
    if t.tag = s.feed.cfg.driveTag[g] then (if t.oneRecord then .judged g else .refuse .align (.move g)) else .raw
  | .settings => .raw
  | .control => .raw
  | .order => .raw
  | .completion _ => .raw
  | .report _ => .raw
  | .notice _ => .raw
  | .event => .raw

/-- The tests of the upstream port, the first that fails giving the answer (R142). -/
def State.route (s : State) (t : Txn) : Route :=
  if !t.addrParityOk then .addrParity
  else if s.breaksAlign t then .align (s.alignArea t)
  else match s.areaAt t.addr.toNat with
    | none => .raw
    | some a =>
      match t.op with
      | .write ws => s.routeWrite t a ws
      | .read _ => s.routeRead t a

end Sys2Proof.Machine
end

