-- ==== Sys2Proof/Machine/Judge.lean ====
section
/-! DEFINITION. The judging of a drive's MOVE read, step by step (R29 to R48, R129). -/

namespace Sys2Proof.Machine

/-! ### Step 7: impossible moves (R37) -/

/-- The tests of R37 for a PICK, after KIND and RANGE. -/
def badPick (g : Gantry) (r : MoveRec) (f : Feed) : Option BadMove :=
  if f.ctx[g].carry.isSome then some .carrying
  else if r.tag = 0 then some .noOrder
  else match f.findOrder r.tag with
    | none => some .noOrder
    | some o =>
      if o.fault.isSome then some .orderFaulted
      else if r.target ≠ f.cfg.stackPos[o.stack] then some .notAtStack
      else none

/-- The tests of R37 for a PLACE, after KIND and RANGE. -/
def badPlace (g : Gantry) (r : MoveRec) (f : Feed) : Option BadMove :=
  match f.ctx[g].carry with
  | none => some .notCarrying
  | some k =>
    if k.kind ≠ .order then some .notPlaceable
    else match f.findOrder k.tag with
      | none => some .notAtStation
      | some o => if r.target ≠ f.cfg.stationPos[o.station] then some .notAtStation else none

/-- The tests of R37 for a REJECT, after KIND and RANGE. -/
def badReject (g : Gantry) (r : MoveRec) (f : Feed) : Option BadMove :=
  if f.ctx[g].carry.isNone then some .notCarrying
  else if r.target ≠ f.cfg.bayPos then some .notAtBay
  else none

/-- The first test of R37 that a record of a known kind fails. -/
def badMove (g : Gantry) (k : MoveKind) (r : MoveRec) (f : Feed) : Option BadMove :=
  if f.cfg.railLen ≤ r.target then some .range
  else match k with
    | .travel => none
    | .pick => badPick g r f
    | .place => badPlace g r f
    | .reject => badReject g r f

/-! ### Step 8: moves not yet possible (R39) -/

/-- The dependency of an order names an order still in the list (R39, R83). -/
def Feed.depUnmet (f : Feed) (o : Order) : Bool := decide (o.dep ≠ 0) && (f.findOrder o.dep).isSome

/-- The first test of R39 that a move fails. -/
def notYet (g : Gantry) (k : MoveKind) (r : MoveRec) (f : Feed) : Option WaitReason :=
  match k with
  | .travel => none
  | .reject => none
  | .pick =>
    match f.findOrder r.tag with
    | none => none
    | some o => if o.out = o.remaining then some .orderOut else none
  | .place =>
    match (orderTag f.ctx[g].carry).bind f.findOrder with
    | none => none
    | some o =>
      if f.stations[o.station].state ≠ .empty then some .station
      else if f.headOf o.station ≠ some o ∨ f.depUnmet o = true ∨ o.fault.isSome then some .plan
      else none

/-! ### Step 9: the rail claim and acceptance (R40 to R43) -/

/-- The order a move concerns: the record's for a PICK, the carry's for a PLACE (R26). -/
def moveOrder (g : Gantry) (k : MoveKind) (r : MoveRec) (f : Feed) : Option Order :=
  match k with
  | .pick => f.findOrder r.tag
  | .place => (orderTag f.ctx[g].carry).bind f.findOrder
  | .travel => none
  | .reject => none

/-- The panel length of a move's swept span (R6). -/
def sweptLen (g : Gantry) (k : MoveKind) (r : MoveRec) (f : Feed) : Nat :=
  let own := f.cfg.carryLen f.ctx[g].carry
  match k with
  | .pick => max own (((f.findOrder r.tag).map (·.len)).getD 0)
  | .travel => own
  | .place => own
  | .reject => own

/-- The swept span of the move (R40). -/
def moveSpan (g : Gantry) (k : MoveKind) (r : MoveRec) (f : Feed) : Span :=
  f.cfg.swept (f.ctx[g].pos.getD 0) r.target (sweptLen g k r f)

/-- The in-flight move recorded at acceptance (the table of R41). -/
def newFlight (g : Gantry) (k : MoveKind) (r : MoveRec) (run : Span) (f : Feed) : Flight where
  kind := k
  toggle := r.toggle
  target := r.target
  tag := match k with
    | .pick => r.tag
    | .place => (f.ctx[g].carry.map (·.tag)).getD 0
    | .reject => (f.ctx[g].carry.map (·.tag)).getD 0
    | .travel => 0
  len := match k with
    | .pick => (moveOrder g k r f).map (·.len)
    | .place => none
    | .reject => none
    | .travel => none
  station := match k with
    | .place => (moveOrder g k r f).map (·.station)
    | .pick => none
    | .reject => none
    | .travel => none
  west := run.west
  east := run.east
  start := f.time

/-- The context of an accepted move (R41). -/
def Ctx.accepted (m : Flight) (c : Ctx) : Ctx :=
  { c with state := .moving, flight := some m, expected := !c.expected, timer := true, wait := .empty }

/-- The batch index of the panel being placed: batch count less remaining count, plus 1 (R43, R103). -/
def batchIndex (o : Order) : Nat := o.batch - o.remaining + 1

/-- The placement is taken by the station, and its landing notice is queued (R43, R103, R115). -/
def Feed.assign (g : Gantry) (o : Order) (f : Feed) : Feed :=
  let f := f.modStation o.station fun x =>
    { x with state := .assigned, early := false, noticeToggle := !x.noticeToggle, noticeTag := o.tag,
             noticeBatch := batchIndex o }
  { f with notices := f.notices ++
      [⟨o.station, f.stations[o.station].noticeToggle, o.tag, o.len, batchIndex o, g, f.time⟩] }

/-- What an acceptance changes at the order or the station of the move (R42, R43). -/
def Feed.acceptOrder (g : Gantry) (k : MoveKind) (order : Option Order) (f : Feed) : Feed :=
  match k, order with
  | .pick, some o => f.modOrder o.tag fun o => { o with out := o.out + 1 }
  | .place, some o => f.assign g o
  | .pick, none => f
  | .place, none => f
  | .travel, _ => f
  | .reject, _ => f

/-- An accepted move (R41 to R43); the acceptance re-arms the mutual-block report (R129). -/
def Feed.accept (g : Gantry) (k : MoveKind) (r : MoveRec) (run : Span) (t : Rail) (f : Feed) : Feed :=
  let f' := (f.setRail t).modCtx g (·.accepted (newFlight g k r run f))
  { f'.acceptOrder g k (moveOrder g k r f) with blockReport := .armed }

/-! ### Waiting for rail (R45 to R48, R129) -/

/-- The wait record at a RAIL wait (R46): a new identity withdraws the gantry's reservation. -/
def Feed.countWait (g : Gantry) (i : WaitId) (f : Feed) : Feed :=
  if f.ctx[g].wait.id = some i then
    f.modCtx g fun c => { c with wait := ⟨some i, satUp Config.count8Max c.wait.count, true⟩ }
  else (f.setRail (unreserve f.rail g)).modCtx g fun c => { c with wait := ⟨some i, 1, true⟩ }

/-- The reserve request of a wait at or over the threshold, and the STARVED event of the wait that reaches it
(R48). -/
def Feed.starve (g : Gantry) (kind : Blocking) (f : Feed) : Feed :=
  if f.cfg.threshold ≤ f.ctx[g].wait.count then
    let f := f.setRail (reserve f.rail g)
    if f.ctx[g].wait.count = f.cfg.threshold then f.raise .starved g.val kind.code else f
  else f

/-- A gantry's wait count is at or over the threshold and its blocked-by-other flag is set (R129). -/
def Feed.blockedLong (f : Feed) (g : Gantry) : Bool :=
  decide (f.cfg.threshold ≤ f.ctx[g].wait.count) && f.ctx[g].wait.blocked

/-- The mutual-block test (R129). -/
def Feed.mutualTest (g : Gantry) (kind : Blocking) (f : Feed) : Feed :=
  if f.blockReport = .armed ∧ f.blockedLong g = true ∧ f.gantryOn (other g) = true ∧
      f.ctx[other g].state = .idle ∧ f.blockedLong (other g) = true then
    { f.raise .mutualBlock g.val kind.code with blockReport := .spent }
  else f

/-- A RAIL wait (R45 to R48, R129). -/
def Feed.railWait (g : Gantry) (i : WaitId) (kind : Blocking) (f : Feed) : Feed :=
  ((f.countWait g i).starve g kind).mutualTest g kind

/-- The rail claim of a possible move: acceptance, or a RAIL wait (R40). -/
def claimMove (g : Gantry) (k : MoveKind) (r : MoveRec) (f : Feed) : Feed × Verdict :=
  match claim f.rail g (moveSpan g k r f) with
  | .granted t => (f.accept g k r (moveSpan g k r f) t, .accept (moveSpan g k r f))
  | .conflict cell kind => (f.railWait g ⟨r.toggle, k, r.target⟩ kind, .waitRail kind cell)

/-! ### The steps in order (R29) -/

/-- Steps 7 to 9, for an IDLE context with the feed hold released. -/
def judgeIdle (g : Gantry) (r : MoveRec) (f : Feed) : Feed × Verdict :=
  match MoveKind.ofCode r.kind with
  | none => (f.haltCtx g .badMove (some .kind), .stop .badMove (some .kind))
  | some k =>
    match badMove g k r f with
    | some why => (f.haltCtx g .badMove (some why), .stop .badMove (some why))
    | none =>
      match notYet g k r f with
      | some why => (f, .wait why)
      | none => claimMove g k r f

/-- The cells a REPEAT carries: the in-flight move's, where it is the move read (R33). -/
def repeatCells (r : MoveRec) (c : Ctx) : Option Span :=
  match c.flight with
  | some m =>
    if m.toggle = r.toggle ∧ m.kind.code = r.kind ∧ m.target = r.target then some ⟨m.west, m.east⟩ else none
  | none => none

/-- The STOP of a HALTED context (R32). -/
def stopVerdict (c : Ctx) : Verdict :=
  match c.halt with
  | some h => .stop h.reason (if h.reason = .badMove then h.sub else none)
  | none => .stop .powerOn none

/-- Steps 2 to 9 in the order of R29 (R32 to R40). A DROP on the other gantry halts it, so a read after it is answered WAIT,
HOLD (R36, R123) until the halt is cleared. Rows 2 and 3 of R93 give that read the answers of R37 and R39; the rules
conflict, and the model follows R29, R36 and R123 (log 33). -/
def judgeGood (g : Gantry) (r : MoveRec) (f : Feed) : Feed × Verdict :=
  if f.ctx[g].state = .halted then (f, stopVerdict f.ctx[g])
  else if r.toggle ≠ f.ctx[g].expected then (f, .again (repeatCells r f.ctx[g]))
  else if r.kind = 0 then (f, .wait .noMove)
  else if f.ctx[g].state = .moving then (f, .wait .busy)
  else if f.hold then (f, .wait .hold)
  else judgeIdle g r f

/-- The memory-fault run count set. -/
def Feed.setMemRun (g : Gantry) (n : Nat) (f : Feed) : Feed := f.modCtx g fun c => { c with memRun := n }

/-- Step 1 with bad memory data: the run count is raised, and the raise from 2 to 3 is a fault (R31). -/
def judgeBad (g : Gantry) (f : Feed) : Feed :=
  if f.ctx[g].memRun = 2 then (f.setMemRun g 3).fault g .memory
  else f.setMemRun g (satUp 3 f.ctx[g].memRun)

/-- The judging of a read on the words memory returned, or none where they are bad (R29, R31). -/
def judge (g : Gantry) (data : Option (List Word)) (f : Feed) : Feed × Verdict :=
  match data with
  | none => (judgeBad g f, .waitMemory)
  | some ws => judgeGood g (.ofWords ws) (f.setMemRun g 0)

end Sys2Proof.Machine
end

