-- ==== Sys2Proof/Machine/Status.lean ====
section
/-! DEFINITION. The status record: one snapshot of live state (R164, R165, section 11.4). -/

namespace Sys2Proof.Machine

/-- The value of a position field for UNKNOWN (section 11.4). -/
def unknownPos : Nat := 16777215

/-- A cell of the held run as the status record shows it (R20). -/
def runCell (run : Option Span) (pick : Span → Nat) : Nat := (run.map pick).getD noCell

/-- The four words of a context (section 11.4): its state code, its held run and its fields (R51). -/
def ctxWords (state : Nat) (run : Option Span) (c : Ctx) : List Word :=
  [ pack [(0, 4, state), (4, 8, (c.halt.map (·.reason.code)).getD 0),
      (12, 4, ((c.halt.bind (·.sub)).map BadMove.code).getD 0), (16, 8, (c.halt.map (·.further)).getD 0),
      (24, 8, c.wait.count)],
    pack [(0, 24, c.pos.getD unknownPos), (24, 2, (c.carry.map (·.kind.code)).getD 0), (26, 1, bitNat c.expected),
      (28, 4, (c.flight.map (·.kind.code)).getD 0)],
    pack [(0, 12, (c.carry.map (·.tag)).getD 0), (12, 12, (c.carry.map (·.len)).getD 0),
      (24, 8, runCell run (·.west))],
    pack [(0, 24, (c.flight.map (·.target)).getD 0), (24, 8, runCell run (·.east))] ]

/-- The word of a station (section 11.4, R119). -/
def stationWord (state : Nat) (x : Station) : Word :=
  pack [(0, 4, state), (4, 4, (x.reason.map StReason.code).getD 0), (8, 12, x.noticeTag), (20, 2, x.saw.code),
    (24, 1, bitNat x.present)]

/-- What the status record shows of the feed: live state in RUN, power-on values in START and LOCKED (R165). -/
def shownCtx (f : Feed) (g : Gantry) : Ctx := if f.part = .run then f.ctx[g] else .powerOn f.time

/-- The state code of a context: DISABLED where the settings in force disable it (R25). -/
def shownCtxState (f : Feed) (g : Gantry) : Nat :=
  if f.part = .run ∧ f.gantryOn g = false then disabledCode else (shownCtx f g).state.code

/-- The station entry the status record shows (R119, R165). -/
def shownStation (f : Feed) (st : StationId) : Station := if f.part = .run then f.stations[st] else .powerOn

/-- The state code of a station (R98, R119). -/
def shownStationState (f : Feed) (st : StationId) : Nat :=
  if f.part = .run ∧ f.stationOn st = false then disabledCode else (shownStation f st).state.code

/-- The tag of a station's head, or 0 (R94). -/
def headTag (f : Feed) (st : StationId) : Nat := ((f.headOf st).map (·.tag)).getD 0

/-- A word of the rail map: cells 10k to 10k + 9, three bits each (section 11.4, R19). -/
def railWord (t : Rail) (k : Nat) : Word :=
  pack ((List.range 10).map fun j => (3 * j, 3, (cellAt t (10 * k + j)).code))

/-- The latched flags in bit order (section 11.4, word 24). -/
def Flags.code (k : Flags) : Nat :=
  bitNat k.addrParity + 2 * bitNat k.refused + 4 * bitNat k.passedParity + 8 * bitNat k.latency +
    16 * bitNat k.memFault + 32 * bitNat k.eventLoss

/-- Word 0 of the status record. -/
def statusWord0 (s : State) : Word :=
  pack [(0, 2, s.feed.part.code), (4, 4, s.feed.loadFault.code), (8, 3, s.lcTag.toNat), (12, 1, bitNat s.holdOut),
    (13, 1, bitNat s.alertOut), (16, 6, s.feed.orders.length)]

/-- Words 19 to 24 of the status record: ring indices, counters and flags. -/
def statusCounts (f : Feed) : List Word :=
  [ pack [(0, 8, f.prod), (16, 8, f.cons)],
    pack [(0, 16, f.counts.addrParity), (16, 16, f.counts.refused)],
    pack [(0, 16, f.counts.passedParity), (16, 16, f.counts.latencyRetry)],
    pack [(0, 16, f.counts.memFault), (16, 16, f.counts.eventsLost)],
    pack [(0, 16, f.counts.mispicks), (16, 16, f.counts.rejects)],
    pack [(0, 16, f.counts.ordersDone), (16, 6, f.flags.code)] ]

/-- The 32 words of the status record (R165, section 11.4). -/
def snapshot (s : State) : List Word :=
  [statusWord0 s, s.feed.time] ++
  ctxWords (shownCtxState s.feed 0) (heldRun s.feed.rail 0) (shownCtx s.feed 0) ++
  ctxWords (shownCtxState s.feed 1) (heldRun s.feed.rail 1) (shownCtx s.feed 1) ++
  ((List.finRange 6).map fun st => stationWord (shownStationState s.feed st) (shownStation s.feed st)) ++
  [ pack [(0, 12, headTag s.feed 0), (16, 12, headTag s.feed 1)],
    pack [(0, 12, headTag s.feed 2), (16, 12, headTag s.feed 3)],
    pack [(0, 12, headTag s.feed 4), (16, 12, headTag s.feed 5)] ] ++
  statusCounts s.feed ++
  (List.range 7).map (railWord s.feed.rail)

/-- The words of a burst of the status record from word k (R164). -/
def statusWords (s : State) (k len : Nat) : List Word := ((snapshot s).drop k).take len

/-- The index of the flags word (R167, section 11.4). -/
def flagsWord : Nat := 24

/-- A line computer burst that covers the flags word clears the six flags (R167). -/
def clearsFlags (s : State) (tag : MasterTag) (k len : Nat) : Bool :=
  decide (tag = s.lcTag ∧ k ≤ flagsWord ∧ flagsWord < k + len)

end Sys2Proof.Machine
end

