-- ==== Sys2Proof/Machine/BusPath.lean ====
section
/-! DEFINITION. The bus path: arrival and answer of transactions, posted and held operations, the memory port and its
arbiter, and the settings reader (R137 to R154, R164, R167, R174). -/

namespace Sys2Proof.Machine

/-! ### Who waits for the memory port (R151, R152) -/

/-- The forwarder has an operation ready: a held transaction or an open posted write (R147, R149). -/
def Bus.forwarderReady (b : Bus) : Bool := b.held.isSome || b.posted.isSome

/-- The settings reader has a burst ready: in START, once the record of the reload has been closed (R152, R154). -/
def State.readerReady (s : State) : Bool :=
  decide (s.feed.part = .start) && !((s.bus.posted.map (·.reload)).getD false)

/-- The record writer has a record ready: in RUN (R152). -/
def Feed.writerReady (f : Feed) : Bool := decide (f.part = .run) && (!f.notices.isEmpty || !f.events.isEmpty)

/-- The own side has an operation ready (R152). -/
def State.ownReady (s : State) : Bool := s.readerReady || s.feed.writerReady

/-- A claimant has an operation ready. -/
def State.ready (s : State) : Claimant → Bool
  | .forwarder => s.bus.forwarderReady
  | .own => s.ownReady

/-- The claimant that did not have the last grant. -/
def Claimant.swap : Claimant → Claimant
  | .forwarder => .own
  | .own => .forwarder

/-- The claimant the free port goes to when it is decided now (R151): the other one where both wait. -/
def State.nextTurn (s : State) : Option Claimant :=
  if s.ready s.bus.lastGrant.swap then some s.bus.lastGrant.swap
  else if s.ready s.bus.lastGrant then some s.bus.lastGrant
  else none

/-- The claimant of the free port, decided when the port falls free or when the first claimant comes to wait, and
decided anew if that claimant no longer waits (R151; log 14). -/
def State.turnNow (s : State) : Option Claimant :=
  if s.bus.port.isSome || s.resetLow then none
  else match s.bus.turn with
    | some c => if s.ready c then some c else s.nextTurn
    | none => s.nextTurn

/-- The state at the end of a step: the free port's claimant is decided. -/
def settle (s : State) : State := { s with bus := { s.bus with turn := s.turnNow } }

/-- The outcome of a command: a next state. -/
def done (s : State) : Host.Outcome State Fault Refusal := .next (settle s)

/-! ### Small updates -/

/-- The feed side changed. -/
def State.onFeed (h : Feed → Feed) (s : State) : State := { s with feed := h s.feed }

/-- A transaction answered without data. -/
def State.reply (k : AnswerKind) (s : State) : State := { s with bus := { s.bus with answer := some ⟨k, []⟩ } }

/-- A READ answered DONE with its words (R137). -/
def State.replyData (ws : List PWord) (s : State) : State :=
  { s with bus := { s.bus with answer := some ⟨.done, ws⟩ } }

/-- A REFUSE answer: "The REFUSED counter is raised and its latched flag set at every REFUSE answer" (R137). -/
def State.refuse (s : State) : State := (s.onFeed (Feed.count .refused)).reply .refuse

/-- The latency bound in force (R147). -/
def State.boundNow (s : State) : Nat := if s.feed.part = .run then s.feed.cfg.bound else Config.startBound

/-- A FAULT of a posted write or an own-side record write (R150): MEM_FAULT and a MEMORY_FAULT event. -/
def Feed.memFault (subject : Nat) (a : Area) (f : Feed) : Feed :=
  (f.count .memFault).raise .memoryFault subject a.code

/-- The subject that stands for the part's own side (R150). -/
def ownSubject : Nat := 15

/-! ### Carrying out a transaction (R141) -/

/-- A write taken in a watched area is answered DONE and becomes the forwarder's posted write, with correct parity
(R146). -/
def State.post (t : Txn) (a : Area) (ws : List Word) (reload : Bool) (bound : Nat) (s : State) : State :=
  { s with bus := { s.bus with
      answer := some ⟨.done, []⟩
      posted := some ⟨t.tag, a, t.addr.toNat, outWords ws, bound, reload⟩ } }

/-- A WINDOW_REFUSED event's detail: the reason in bits 0 to 7, the area's kind in bits 8 to 15 (section 11.2). -/
def refusalDetail (why : Refuse) (a : Area) : Nat := why.code + 256 * a.code

/-- A refusal in a watched area (R143). -/
def State.refuseWindow (t : Txn) (why : Refuse) (a : Area) (s : State) : State :=
  s.refuse.onFeed (Feed.raise .windowRefused t.tag.toNat (refusalDetail why a))

/-- An ALIGN refusal: with its event where it concerns a watched area (R140, R143). -/
def State.refuseAlign (t : Txn) (a : Option Area) (s : State) : State :=
  match a with
  | some a => s.refuseWindow t .align a
  | none => s.refuse

/-- A transaction with bad address-phase parity (R138). -/
def State.refuseAddrParity (s : State) : State := (s.onFeed (Feed.count .addrParity)).refuse

/-- An admission request taken (R77, R79 to R81). -/
def State.takeOrder (t : Txn) (ws : List Word) (s : State) : State :=
  match admission (.ofWords ws) s.feed with
  | .refused why => s.refuse.onFeed (Feed.raise .orderRefused (OrderRec.ofWords ws).tag why.code)
  | .full => s.reply .retry
  | .admitted => (s.onFeed (Feed.enlist (.ofWords ws))).post t .order (stampWords ws 2 1) false s.boundNow

/-- A completion taken (R53). -/
def State.takeCompletion (g : Gantry) (t : Txn) (ws : List Word) (s : State) : State :=
  let out := complete g (.ofWords ws) s.feed
  ({ s with feed := out.1 }).post t (.completion g) (stampWords ws 3 out.2.code) false s.boundNow

/-- A report taken (R112). -/
def State.takeReport (st : StationId) (t : Txn) (ws : List Word) (s : State) : State :=
  let out := report st (.ofWords ws) s.feed
  ({ s with feed := out.1 }).post t (.report st) (stampWords ws 3 out.2.code) false s.boundNow

/-- An operation of the own side in progress is abandoned: its answer is to be discarded (R179). -/
def PortOp.abandonOwn (o : PortOp) : PortOp :=
  match o.kind with
  | .notice _ => { o with discard := true }
  | .event => { o with discard := true }
  | .settings => o
  | .judged _ => o
  | .raw => o
  | .posted => o

/-- The settings reader made ready for a load, and the record writer's operation abandoned, where a reload was taken
(R179). -/
def State.startLoad (took : Bool) (s : State) : State :=
  if took then { s with bus := { s.bus with port := s.bus.port.map PortOp.abandonOwn, image := [] } } else s

/-- A control command taken: RETRY in START, otherwise its effect, its result stamped, and the record posted (R156,
R157). The bound of the record is the one in force at the arrival, also where the command is a RELOAD_SETTINGS that
ends RUN: the model's choice (log 37). -/
def State.takeControl (t : Txn) (ws : List Word) (s : State) : State :=
  match command (.ofWords ws) s.feed with
  | none => s.reply .retry
  | some (f, res) =>
    (({ s with feed := f }).startLoad (tookReload (.ofWords ws) res)).post t .control (stampWords ws 8 res.code)
      (tookReload (.ofWords ws) res) s.boundNow

/-- A write taken by the block that owns its area (R141). -/
def State.takeWrite (t : Txn) (a : Area) (ws : List Word) (s : State) : State :=
  match a with
  | .settings => s.post t .settings ws false s.boundNow
  | .control => s.takeControl t ws
  | .order => s.takeOrder t ws
  | .move g => s.post t (.move g) ws false s.boundNow
  | .completion g => s.takeCompletion g t ws
  | .report st => s.takeReport st t ws
  | .status => s
  | .notice _ => s
  | .event => s

/-- The index of the status word a burst begins with. -/
def State.statusIndex (s : State) (t : Txn) : Nat := (t.addr.toNat - s.statusBase) / 4

/-- A status read: answered from one snapshot, the flags cleared after it by a line computer burst that covers them
(R164, R167). -/
def State.readStatus (t : Txn) (s : State) : State :=
  let k := s.statusIndex t
  let s' := s.replyData (outWords (statusWords s k t.op.len))
  if clearsFlags s t.tag k t.op.len then s'.onFeed fun f => { f with flags := .clear } else s'

/-- A transaction held at the port (R147). -/
def State.hold (t : Txn) (judged : Option Gantry) (s : State) : State :=
  { s with bus := { s.bus with held := some ⟨t, judged, s.boundNow⟩ } }

/-- A transaction carried out as the upstream port's tests route it (R141, R142). -/
def State.carry (t : Txn) (r : Route) (s : State) : State :=
  match r with
  | .addrParity => s.refuseAddrParity
  | .align a => s.refuseAlign t a
  | .refuse why a => s.refuseWindow t why a
  | .take a ws => s.takeWrite t a ws
  | .status => s.readStatus t
  | .judged g => s.hold t (some g)
  | .raw => s.hold t none

/-- A transaction arrives: the upstream port takes it for decoding (R147). -/
def State.arrive (t : Txn) (s : State) : State := s.carry t (s.route t)

/-- The answer lines released: the transaction presented has no answer yet. -/
def State.unanswered (s : State) : State := { s with bus := { s.bus with answer := none } }

/-- A transaction presented at the upstream port: RETRY while RESET_N is asserted (R154), held on the bus behind an
open posted write (R149), otherwise it arrives. The arbiter presents none while one is in hand (R137; log 11). -/
def State.present (t : Txn) (s : State) : State :=
  if s.resetLow then s.reply .retry
  else if s.bus.onBus.isSome || s.bus.held.isSome then s
  else if s.bus.posted.isSome then { s with bus := { s.bus with onBus := some t, answer := none } }
  else s.unanswered.arrive t

/-- The transaction waiting on the bus arrives, once the posted write before it is closed (R149). -/
def State.arriveNext (s : State) : State :=
  match s.bus.onBus with
  | some t => ({ s with bus := { s.bus with onBus := none } }).arrive t
  | none => s

/-! ### The memory port -/

/-- The port falls free. -/
def State.freePort (s : State) : State := { s with bus := { s.bus with port := none } }

/-- The forwarder's operation (R147, R149). -/
def Bus.forwarderOp (b : Bus) : Option PortOp :=
  match b.posted with
  | some p => some ⟨.posted, p.addr, .write p.words, false⟩
  | none =>
    match b.held with
    | some h =>
      some ⟨match h.judged with | some g => .judged g | none => .raw, h.txn.addr.toNat, h.txn.op, false⟩
    | none => none

/-- The settings reader's next burst (R174). -/
def State.readerOp (s : State) : PortOp :=
  ⟨.settings, s.anchor + 4 * s.bus.image.length, .read 16, false⟩

/-- The record writer's next record: notices before events, the oldest first (R152, R160). -/
def Feed.writerOp (f : Feed) : Option PortOp :=
  match f.notices with
  | n :: _ => some ⟨.notice n.station, f.cfg.noticeBase[n.station], .write (outWords n.words), false⟩
  | [] =>
    match f.events with
    | e :: _ => some ⟨.event, f.cfg.ringBase + 16 * f.prod, .write (outWords e.words), false⟩
    | [] => none

/-- The own side's next operation, the settings reader first (R152). -/
def State.ownOp (s : State) : Option PortOp :=
  if s.readerReady then some s.readerOp
  else if s.feed.writerReady then s.feed.writerOp
  else none

/-- A claimant's next operation. -/
def State.nextOp (s : State) : Claimant → Option PortOp
  | .forwarder => s.bus.forwarderOp
  | .own => s.ownOp

/-- The words of a write forwarded raw, which go to memory with their parity bits as received (R145). -/
def PortOp.rawWords (o : PortOp) : List PWord :=
  match o.op with
  | .write ws => if o.kind = .raw then ws else []
  | .read _ => []

/-- PASSED_PARITY is raised once for a transaction with bad words (R145). -/
def Feed.passParity (ws : List PWord) (f : Feed) : Feed := if ws.all parityOk then f else f.count .passedParity

/-- The free port granted to the claimant whose turn it is (R151). A raw write is forwarded here, and counted where its
parity is bad (R145; log 16). -/
def State.grant (s : State) : State :=
  if s.bus.port.isSome || s.resetLow then s
  else match s.bus.turn with
    | some c =>
      match s.nextOp c with
      | some o => { s with feed := s.feed.passParity o.rawWords, bus := { s.bus with port := some o, lastGrant := c } }
      | none => s
    | none => s

/-! ### Memory's answers (R150) -/

/-- Memory after its answer to an operation: a write's words are stored at DONE. At FAULT they are free words, but a
notice's slot keeps what it held (R81, R116, R160; log 6). -/
def State.memAfter (o : PortOp) (a : MemAnswer) (s : State) : State :=
  match o.op, a with
  | .read _, _ => s
  | .write ws, .done _ => { s with mem := s.mem.writeWords o.addr ws }
  | .write ws, .fault =>
    match o.kind with
    | .notice _ => s
    | .event => { s with mem := s.mem.writeWords o.addr (faultedWords s.openCount ws), openCount := s.openCount + 1 }
    | .posted => { s with mem := s.mem.writeWords o.addr (faultedWords s.openCount ws), openCount := s.openCount + 1 }
    | .raw => { s with mem := s.mem.writeWords o.addr (faultedWords s.openCount ws), openCount := s.openCount + 1 }
    | .judged _ => s
    | .settings => s

/-- The operation is answered: memory is as its answer leaves it, and the port falls free. -/
def State.endOp (o : PortOp) (a : MemAnswer) (s : State) : State := (s.memAfter o a).freePort

/-- The words a read is answered with, none at FAULT (R150). -/
def State.readAnswer (o : PortOp) (a : MemAnswer) (s : State) : Option (List PWord) :=
  match a with
  | .done ups => some (upsetWords ups (s.mem.readWords o.addr o.op.len))
  | .fault => none

/-- The data of a judged read or a settings burst, none where they are bad (R31, R174). -/
def goodData (ws : Option (List PWord)) : Option (List Word) :=
  match ws with
  | some ws => if ws.all parityOk then some (ws.map (·.data)) else none
  | none => none

/-- The operation in progress whose answer a command brings: one of the kinds asked for, not of a part being reset. -/
def State.opOf (s : State) (p : OpKind → Bool) : Option PortOp :=
  match s.bus.port with
  | some o => if p o.kind then some o else none
  | none => none

/-- A held transaction leaves the port. -/
def State.unhold (s : State) : State := { s with bus := { s.bus with held := none } }

/-- An answer taken for the operation in progress: discarded where the operation was ended before, else acted on by
next, with memory and port already as the answer leaves them (R148, R149, R151, R179). -/
def State.answered (p : OpKind → Bool) (a : MemAnswer) (next : PortOp → State → State) (s : State) : State :=
  match s.opOf p with
  | none => s
  | some o => if o.discard then s.endOp o a else next o (s.endOp o a)

/-- The answer to a judged read: judged, answered DONE with the returned record (R29, R30). -/
def State.judgeHeld (g : Gantry) (data : Option (List Word)) (s : State) : State :=
  let out := judge g data s.feed
  let ws := out.2.words s.feed.time (data.getD [])
  (({ s with feed := out.1 }).unhold).replyData (outWords ws)

/-- The answer to a held operation forwarded raw: a READ's bad words are passed on and counted (R145, R147, R150). -/
def State.answerRaw (o : PortOp) (a : MemAnswer) (ws : Option (List PWord)) (s : State) : State :=
  match a with
  | .fault => s.unhold.refuse
  | .done _ =>
    match o.op with
    | .read _ => (s.unhold.onFeed (Feed.passParity (ws.getD []))).replyData (ws.getD [])
    | .write _ => s.unhold.reply .done

/-- The open posted write is closed, counted where it ended in FAULT, and the next transaction arrives (R149,
R150). -/
def State.closePosted (faulted : Bool) (s : State) : State :=
  match s.bus.posted with
  | none => s
  | some p =>
    let s' := { s with bus := { s.bus with posted := none } }
    (if faulted then s'.onFeed (Feed.memFault p.tag.toNat p.area) else s').arriveNext

/-- A landing notice's write has ended (R116, R150). -/
def Feed.endNotice (st : StationId) (faulted : Bool) (f : Feed) : Feed :=
  let f := { f with notices := f.notices.tail }
  if faulted then f.memFault ownSubject (.notice st) else f

/-- An event's write has ended: at DONE P advances, at FAULT the event is lost (R160). -/
def Feed.endEvent (faulted : Bool) (f : Feed) : Feed :=
  match f.events with
  | [] => f
  | e :: rest =>
    if faulted then
      let f := { f with events := rest }
      if e.code = .memoryFault then f.count .memFault else f.memFault ownSubject .event
    else { f with events := rest, prod := (f.prod + 1) % f.ringCap }

/-- The part fails the load (R175, R176). -/
def State.failLoad (code : LoadFault) (s : State) : State :=
  ({ s with bus := { s.bus with image := [] } }).onFeed (Feed.enterLocked code)

/-- The image is validated, once its fourth burst is taken (R174, R175, R177). -/
def State.endLoad (ws : List Word) (s : State) : State :=
  match validate s.anchor s.lcTag ws with
  | .none =>
    ({ s with bus := { s.bus with image := [] } }).onFeed (Feed.enterRun (.ofImage ws) s.vacRaw s.presentRaw)
  | code => s.failLoad code

/-- A settings burst taken (R174). -/
def State.takeBurst (data : Option (List Word)) (s : State) : State :=
  match data with
  | none => s.failLoad .memory
  | some ws =>
    if (s.bus.image ++ ws).length < 64 then { s with bus := { s.bus with image := s.bus.image ++ ws } }
    else s.endLoad (s.bus.image ++ ws)

/-! ### Bounds that expire -/

/-- The operation in progress is closed by its bound: the port stays busy, and the answer will be discarded (R148,
R151). -/
def State.discardOp (p : OpKind → Bool) (s : State) : State :=
  { s with bus := { s.bus with port := s.bus.port.map fun o => if p o.kind then { o with discard := true } else o } }

/-- The operation of a held transaction. -/
def OpKind.isHeld : OpKind → Bool
  | .judged _ => true
  | .raw => true
  | .posted => false
  | .notice _ => false
  | .event => false
  | .settings => false

/-- A record write of the own side. -/
def OpKind.isRecord : OpKind → Bool
  | .notice _ => true
  | .event => true
  | .judged _ => false
  | .raw => false
  | .posted => false
  | .settings => false

/-- The latency bound of the held transaction expires (R147, R148). -/
def State.expireHeld (us : Nat) (s : State) : State :=
  match s.bus.held with
  | none => s
  | some h =>
    if us < h.bound then s
    else ((s.discardOp OpKind.isHeld).unhold.onFeed (Feed.count .latencyRetry)).reply .retry

/-- The bound of the open posted write expires (R149; log 15). -/
def State.expirePosted (us : Nat) (s : State) : State :=
  match s.bus.posted with
  | none => s
  | some p => if us < p.bound then s else (s.discardOp (· == .posted)).closePosted true

/-- The record write in progress is not answered within the latency bound (R152). -/
def State.expireRecord (us : Nat) (s : State) : State :=
  match s.opOf OpKind.isRecord with
  | none => s
  | some o =>
    if o.discard || decide (us < s.boundNow) then s
    else match o.kind with
      | .notice st => (s.discardOp OpKind.isRecord).onFeed (Feed.endNotice st true)
      | .event => (s.discardOp OpKind.isRecord).onFeed (Feed.endEvent true)
      | .judged _ => s
      | .raw => s
      | .posted => s
      | .settings => s

/-- The settings burst in progress is not answered within 64 microseconds (R152, R174). -/
def State.expireBurst (us : Nat) (s : State) : State :=
  match s.opOf (· == .settings) with
  | none => s
  | some o =>
    if o.discard || decide (us < Config.startBound) then s
    else (s.discardOp (· == .settings)).failLoad .memory

end Sys2Proof.Machine
end

