-- ==== Sys2Proof/Machine/PortCommands.lean ====
section
/-! DEFINITION. The commands of the memory port: grants, job memory's answers, and the bounds that expire (R147 to
R152, R174). An answer of a kind the port has no operation of does not arise and changes nothing (log 10). -/

namespace Sys2Proof.Machine

/-- The operation is a judged read's fetch. -/
def OpKind.isJudged : OpKind → Bool
  | .judged _ => true
  | .raw => false
  | .posted => false
  | .notice _ => false
  | .event => false
  | .settings => false

/-- The operation is a notice write. -/
def OpKind.isNotice : OpKind → Bool
  | .notice _ => true
  | .judged _ => false
  | .raw => false
  | .posted => false
  | .event => false
  | .settings => false

/-- What the answer to a judged read's fetch does (R29). -/
def State.afterFetch (a : MemAnswer) (o : PortOp) (s : State) : State :=
  match o.kind with
  | .judged g => s.judgeHeld g (goodData (s.readAnswer o a))
  | .raw => s
  | .posted => s
  | .notice _ => s
  | .event => s
  | .settings => s

/-- JUDGE_MOVE (R29): the memory data of the held MOVE read are taken, and the read is judged and answered. -/
def execJudgeMove (a : MemAnswer) (s : State) : Host.Outcome State Fault Refusal :=
  done (s.answered OpKind.isJudged a (State.afterFetch a))

/-- HELD_MEMORY_ANSWER (R147, R150): memory's answer to a held operation forwarded raw. -/
def execHeldMemoryAnswer (a : MemAnswer) (s : State) : Host.Outcome State Fault Refusal :=
  done (s.answered (· == .raw) a fun o s => s.answerRaw o a (s.readAnswer o a))

/-- The answer is FAULT. -/
def MemAnswer.isFault : MemAnswer → Bool
  | .fault => true
  | .done _ => false

/-- POSTED_WRITE_ANSWER (R149, R150): the posted write is closed and the next transaction arrives. -/
def execPostedWriteAnswer (a : MemAnswer) (s : State) : Host.Outcome State Fault Refusal :=
  done (s.answered (· == .posted) a fun _ s => s.closePosted (MemAnswer.isFault a))

/-- What the answer to a notice write does (R116). -/
def State.afterNotice (a : MemAnswer) (o : PortOp) (s : State) : State :=
  match o.kind with
  | .notice st => s.onFeed (Feed.endNotice st (MemAnswer.isFault a))
  | .judged _ => s
  | .raw => s
  | .posted => s
  | .event => s
  | .settings => s

/-- NOTICE_WRITE_ANSWER (R116, R150). -/
def execNoticeWriteAnswer (a : MemAnswer) (s : State) : Host.Outcome State Fault Refusal :=
  done (s.answered OpKind.isNotice a (State.afterNotice a))

/-- EVENT_WRITE_ANSWER (R150, R160). -/
def execEventWriteAnswer (a : MemAnswer) (s : State) : Host.Outcome State Fault Refusal :=
  done (s.answered (· == .event) a fun _ s => s.onFeed (Feed.endEvent (MemAnswer.isFault a)))

/-- SETTINGS_BURST (R174): a burst is taken, and after the fourth good one the image is validated. -/
def execSettingsBurst (a : MemAnswer) (s : State) : Host.Outcome State Fault Refusal :=
  done (s.answered (· == .settings) a fun o s => s.takeBurst (goodData (s.readAnswer o a)))

/-- LATENCY_EXPIRY (R147, R148). -/
def execLatencyExpiry (us : Nat) (s : State) : Host.Outcome State Fault Refusal := done (s.expireHeld us)

/-- POSTED_WRITE_TIMEOUT (R149). -/
def execPostedWriteTimeout (us : Nat) (s : State) : Host.Outcome State Fault Refusal := done (s.expirePosted us)

/-- RECORD_WRITE_TIMEOUT (R152). -/
def execRecordWriteTimeout (us : Nat) (s : State) : Host.Outcome State Fault Refusal := done (s.expireRecord us)

/-- SETTINGS_BURST_TIMEOUT (R152, R174). -/
def execSettingsBurstTimeout (us : Nat) (s : State) : Host.Outcome State Fault Refusal := done (s.expireBurst us)

/-- PORT_GRANT (R151). -/
def execPortGrant (s : State) : Host.Outcome State Fault Refusal := done s.grant

end Sys2Proof.Machine
end

