-- ==== Sys2Proof/Machine/Pins.lean ====
section
/-! DEFINITION. The pins: RESET_N (R154, R173), the raw and filtered vacuum-grip levels (R69 to R71) and the raw and
filtered panel-present levels (R100 to R102). -/

namespace Sys2Proof.Machine

/-- The part acts on its sensors and timers: in RUN, and RESET_N is not asserted (R172, R173). -/
def State.live (s : State) : Bool := !s.resetLow && decide (s.feed.part = .run)

/-! ### RESET_N -/

/-- A transaction in hand when RESET_N is taken is answered RETRY (R154). -/
def State.retryInHand (s : State) : State :=
  if s.bus.onBus.isSome || s.bus.held.isSome then s.reply .retry else s

/-- An abandoned write: memory may or may not hold its words (R154; log 7). -/
def State.abandonWrite (addr : Nat) (ws : List PWord) (s : State) : State :=
  { s with mem := s.mem.abandonWords s.openCount 0 addr ws, openCount := s.openCount + 1 }

/-- A memory write in progress is abandoned (R154). -/
def State.abandonOp (s : State) : State :=
  match s.bus.port with
  | some o =>
    match o.op with
    | .write ws => s.abandonWrite o.addr ws
    | .read _ => s
  | none => s

/-- The open posted write is the operation in progress. -/
def Bus.postedInProgress (b : Bus) : Bool := b.port.any fun o => decide (o.kind = .posted) && !o.discard

/-- "A posted write not yet answered by memory" is abandoned also where it still waits for its grant (R154). -/
def State.abandonPosted (s : State) : State :=
  match s.bus.posted with
  | some p => if s.bus.postedInProgress then s else s.abandonWrite p.addr p.words
  | none => s

/-- RESET_ASSERT (R154, R173; log 17): what is in hand is ended, and the tables take their power-on values. A held write
that still waits for its grant never reaches memory: the model's reading (log 38). -/
def execResetAssert (s : State) : Host.Outcome State Fault Refusal :=
  let s' := s.retryInHand.abandonOp.abandonPosted
  done { s' with
    resetLow := true
    feed := s'.feed.powerOn
    bus := { s'.bus with onBus := none, held := none, posted := none, port := none, image := [] } }

/-- RESET_RELEASE (R173): the straps are sampled and every block takes its power-on values; also the end of power-up
(log 28). -/
def execResetRelease (base : BitVec 4) (lcTag : MasterTag) (s : State) : Host.Outcome State Fault Refusal :=
  done { s with
    resetLow := false, base := base, lcTag := lcTag, feed := Feed.reset, bus := { Bus.reset with answer := s.bus.answer } }

/-! ### Raw levels -/

/-- The filter interval after a raw change: it starts where the new raw level differs from the filtered one, and is
abandoned where it returns to it (R69, R100). -/
def intervalAfter (on level raw : Bool) (t : Time) : Option Time := if on && raw != level then some t else none

/-- VAC_RAW_CHANGE (R69). In START and LOCKED, and at a disabled gantry, the raw level is not acted on (R25). -/
def execVacRawChange (g : Gantry) (level : Bool) (s : State) : Host.Outcome State Fault Refusal :=
  if s.vacRaw[g] = level then done s
  else
    let since := intervalAfter (s.live && s.feed.gantryOn g) s.feed.vac[g].level level s.feed.time
    done { s with
      vacRaw := s.vacRaw.set g level
      feed := s.feed.setVac g ⟨s.feed.vac[g].level, since⟩ }

/-- PRESENT_RAW_CHANGE (R100). -/
def execPresentRawChange (st : StationId) (level : Bool) (s : State) : Host.Outcome State Fault Refusal :=
  if s.presentRaw[st] = level then done s
  else
    let since := intervalAfter (s.live && s.feed.stationOn st) s.feed.stations[st].present level s.feed.time
    done { s with
      presentRaw := s.presentRaw.set st level
      feed := s.feed.modStation st fun x => { x with presentSince := since } }

/-! ### Filtered changes -/

/-- A filtered change of gantry g's VAC to a level is due (R69). -/
def State.vacDue (s : State) (g : Gantry) (level : Bool) : Bool :=
  s.live && s.feed.gantryOn g && (s.feed.vac[g].level != level) && (s.vacRaw[g] == level) &&
    s.feed.filterDone s.feed.vac[g].since

/-- A PICK is in flight (R71). -/
def pickInFlight (c : Ctx) : Bool :=
  match c.flight with
  | some m => decide (m.kind = .pick)
  | none => false

/-- The effect of a filtered fall at the context (R70). -/
def Feed.vacFallen (g : Gantry) (f : Feed) : Feed :=
  if gripInFlight f.ctx[g] then f
  else if f.ctx[g].carry.isSome then f.drop g
  else f

/-- The effect of a filtered rise at the context (R71). -/
def Feed.vacRisen (g : Gantry) (f : Feed) : Feed :=
  if pickInFlight f.ctx[g] then f
  else if f.ctx[g].carry.isSome then f
  else f.unexpectedGrip g

/-- VAC_FALL (R70): taken when it is due (log 9, log 10). -/
def execVacFall (g : Gantry) (s : State) : Host.Outcome State Fault Refusal :=
  if s.vacDue g false then done (s.onFeed fun f => (f.setVac g ⟨false, none⟩).vacFallen g) else done s

/-- VAC_RISE (R71): taken when it is due. -/
def execVacRise (g : Gantry) (s : State) : Host.Outcome State Fault Refusal :=
  if s.vacDue g true then done (s.onFeed fun f => (f.setVac g ⟨true, none⟩).vacRisen g) else done s

/-- A filtered change of station st's PRESENT to a level is due (R100). -/
def State.presentDue (s : State) (st : StationId) (level : Bool) : Bool :=
  s.live && s.feed.stationOn st && (s.feed.stations[st].present != level) && (s.presentRaw[st] == level) &&
    s.feed.filterDone s.feed.stations[st].presentSince

/-- PRESENT_RISE (R100, R101): taken when it is due. -/
def execPresentRise (st : StationId) (s : State) : Host.Outcome State Fault Refusal :=
  if s.presentDue st true then done (s.onFeed fun f => (f.setPresent st true).presentRisen st) else done s

/-- PRESENT_FALL (R100, R102): taken when it is due. -/
def execPresentFall (st : StationId) (s : State) : Host.Outcome State Fault Refusal :=
  if s.presentDue st false then done (s.onFeed fun f => (f.setPresent st false).presentFallen st) else done s

end Sys2Proof.Machine
end

