-- ==== Sys2Proof/Machine/Timers.lean ====
section
/-! DEFINITION. The part's time and its timers (R49, R109, R110, R155). -/

namespace Sys2Proof.Machine

/-- The move timer of a context has reached the move timeout (R49). -/
def Feed.moveDue (f : Feed) (g : Gantry) : Bool :=
  match f.ctx[g].flight with
  | some m => decide (f.ctx[g].state = .moving) && f.ctx[g].timer &&
      decide (1000 * f.cfg.moveTimeout ≤ elapsed f.time m.start)
  | none => false

/-- MOVE_TIMEOUT (R49): taken when the timer is due (log 9). -/
def execMoveTimeout (g : Gantry) (s : State) : Host.Outcome State Fault Refusal :=
  if s.live && s.feed.gantryOn g && s.feed.moveDue g then done (s.onFeed (Feed.haltCtx g .moveTimeout none)) else done s

/-- A timer started at a time has run for a number of milliseconds. -/
def Feed.ranFor (f : Feed) (start : Option Time) (ms : Nat) : Bool :=
  match start with
  | some t0 => decide (ms ≤ elapsed f.time t0)
  | none => false

/-- LANDING_TIMEOUT (R109): taken when the timer is due. -/
def execLandingTimeout (st : StationId) (s : State) : Host.Outcome State Fault Refusal :=
  if s.live && s.feed.stationOn st && decide (s.feed.stations[st].state = .landing) &&
      s.feed.ranFor s.feed.stations[st].landingStart s.feed.cfg.landingTimeout then
    done (s.onFeed (Feed.faultStation st .landingTimeout))
  else done s

/-- The guard time has passed: the station is EMPTY (R110). -/
def Feed.guardEnded (st : StationId) (f : Feed) : Feed :=
  f.modStation st fun x => { x with state := .empty, guardStart := none }

/-- GUARD_EXPIRY (R110): taken when the timer is due. -/
def execGuardExpiry (st : StationId) (s : State) : Host.Outcome State Fault Refusal :=
  if s.live && s.feed.stationOn st && decide (s.feed.stations[st].state = .guard) &&
      s.feed.ranFor s.feed.stations[st].guardStart s.feed.cfg.guardTime[st] then
    done (s.onFeed (Feed.guardEnded st))
  else done s

/-- PART_TIME_TICK (R155): the time advances by one in every part state and wraps after its greatest value. -/
def execPartTimeTick (s : State) : Host.Outcome State Fault Refusal :=
  done (s.onFeed fun f => { f with time := f.time + 1 })

end Sys2Proof.Machine
end

