-- ==== Sys2Proof/Machine/Transactions.lean ====
section
/-! DEFINITION. The commands that present a transaction at the upstream port. Each builds the transaction its row names;
what the part does with it is decided on the wire by the port's tests and the window decoder (R139 to R142; log 12). -/

namespace Sys2Proof.Machine

/-- A READ with good address-phase parity. -/
def readTxn (tag : MasterTag) (addr : Addr) (len : Nat) : Txn := ⟨tag, true, addr, .read len⟩

/-- A WRITE with good address-phase parity. -/
def writeTxn (tag : MasterTag) (addr : Addr) (words : List PWord) : Txn := ⟨tag, true, addr, .write words⟩

/-- A control record presented with its command code and good data parity (R156). -/
def controlTxn (tag : MasterTag) (addr : Addr) (code : BitVec 8) (r : ControlRec) : Txn :=
  writeTxn tag addr (outWords (controlWords code r))

/-- MOVE_READ (R28): a drive's read of one record of its MOVE window is held and its fetch begins. -/
def execMoveRead (tag : MasterTag) (addr : Addr) (s : State) : Host.Outcome State Fault Refusal :=
  done (s.present (readTxn tag addr 4))

/-- COMPLETION_WRITE (R53, R54): a completion record is taken at arrival, acted on, answered DONE and posted. -/
def execCompletionWrite (tag : MasterTag) (addr : Addr) (words : List PWord) (s : State) :
    Host.Outcome State Fault Refusal :=
  done (s.present (writeTxn tag addr words))

/-- ORDER_WRITE (R77): an admission request is refused, retried or admitted. -/
def execOrderWrite (tag : MasterTag) (addr : Addr) (words : List PWord) (s : State) :
    Host.Outcome State Fault Refusal :=
  done (s.present (writeTxn tag addr words))

/-- REPORT_WRITE (R112): a saw report is taken or found a duplicate, answered DONE and posted. -/
def execReportWrite (tag : MasterTag) (addr : Addr) (words : List PWord) (s : State) :
    Host.Outcome State Fault Refusal :=
  done (s.present (writeTxn tag addr words))

/-- CLEAR_HALT, command 1 (R124 to R127). -/
def execClearHalt (tag : MasterTag) (addr : Addr) (r : ControlRec) (s : State) : Host.Outcome State Fault Refusal :=
  done (s.present (controlTxn tag addr 1 r))

/-- CANCEL_ORDER, command 2 (R88, R89). -/
def execCancelOrder (tag : MasterTag) (addr : Addr) (r : ControlRec) (s : State) : Host.Outcome State Fault Refusal :=
  done (s.present (controlTxn tag addr 2 r))

/-- UNBLOCK_STATION, command 3 (R117). -/
def execUnblockStation (tag : MasterTag) (addr : Addr) (r : ControlRec) (s : State) :
    Host.Outcome State Fault Refusal :=
  done (s.present (controlTxn tag addr 3 r))

/-- ACK_EVENTS, command 4 (R161). -/
def execAckEvents (tag : MasterTag) (addr : Addr) (r : ControlRec) (s : State) : Host.Outcome State Fault Refusal :=
  done (s.present (controlTxn tag addr 4 r))

/-- RESET_FEED, command 5 (R131 to R133). -/
def execResetFeed (tag : MasterTag) (addr : Addr) (r : ControlRec) (s : State) : Host.Outcome State Fault Refusal :=
  done (s.present (controlTxn tag addr 5 r))

/-- RELOAD_SETTINGS, command 6 (R178, R179). -/
def execReloadSettings (tag : MasterTag) (addr : Addr) (r : ControlRec) (s : State) :
    Host.Outcome State Fault Refusal :=
  done (s.present (controlTxn tag addr 6 r))

/-- A control record with a command code outside 1 to 6 (R156, R157). -/
def execUnknownCommand (tag : MasterTag) (addr : Addr) (code : BitVec 8) (r : ControlRec) (s : State) :
    Host.Outcome State Fault Refusal :=
  done (s.present (controlTxn tag addr code r))

/-- STATUS_READ (R164): a read of the status area is answered from one snapshot. -/
def execStatusRead (tag : MasterTag) (addr : Addr) (len : Nat) (s : State) : Host.Outcome State Fault Refusal :=
  done (s.present (readTxn tag addr len))

/-- OWNER_WRITE_POSTED (R146): a line computer write into a MOVE window or the settings image is posted unchanged. -/
def execOwnerWritePosted (tag : MasterTag) (addr : Addr) (words : List PWord) (s : State) :
    Host.Outcome State Fault Refusal :=
  done (s.present (writeTxn tag addr words))

/-- FORWARD_RAW (R147): any transaction, with its address-phase parity as it stands; unwatched ones and raw reads of
watched areas are held, and what fails the port's tests is refused (R138, R140, R143). -/
def execForwardRaw (t : Txn) (s : State) : Host.Outcome State Fault Refusal := done (s.present t)

end Sys2Proof.Machine
end

