-- ==== Sys2Proof/Machine/Dispatch.lean ====
section
/-! DEFINITION. One arm for each command of spec/opcode_table.json. -/

namespace Sys2Proof.Machine

def exec (i : Instr) (s : State) : Host.Outcome State Fault Refusal :=
  match i with
  | .moveRead tag addr => Sys2Proof.Machine.execMoveRead tag addr s
  | .judgeMove a => Sys2Proof.Machine.execJudgeMove a s
  | .latencyExpiry us => Sys2Proof.Machine.execLatencyExpiry us s
  | .completionWrite tag addr words => Sys2Proof.Machine.execCompletionWrite tag addr words s
  | .orderWrite tag addr words => Sys2Proof.Machine.execOrderWrite tag addr words s
  | .reportWrite tag addr words => Sys2Proof.Machine.execReportWrite tag addr words s
  | .clearHalt tag addr r => Sys2Proof.Machine.execClearHalt tag addr r s
  | .cancelOrder tag addr r => Sys2Proof.Machine.execCancelOrder tag addr r s
  | .unblockStation tag addr r => Sys2Proof.Machine.execUnblockStation tag addr r s
  | .ackEvents tag addr r => Sys2Proof.Machine.execAckEvents tag addr r s
  | .resetFeed tag addr r => Sys2Proof.Machine.execResetFeed tag addr r s
  | .reloadSettings tag addr r => Sys2Proof.Machine.execReloadSettings tag addr r s
  | .unknownCommand tag addr code r => Sys2Proof.Machine.execUnknownCommand tag addr code r s
  | .statusRead tag addr len => Sys2Proof.Machine.execStatusRead tag addr len s
  | .ownerWritePosted tag addr words => Sys2Proof.Machine.execOwnerWritePosted tag addr words s
  | .forwardRaw t => Sys2Proof.Machine.execForwardRaw t s
  | .heldMemoryAnswer a => Sys2Proof.Machine.execHeldMemoryAnswer a s
  | .postedWriteAnswer a => Sys2Proof.Machine.execPostedWriteAnswer a s
  | .postedWriteTimeout us => Sys2Proof.Machine.execPostedWriteTimeout us s
  | .portGrant => Sys2Proof.Machine.execPortGrant s
  | .noticeWriteAnswer a => Sys2Proof.Machine.execNoticeWriteAnswer a s
  | .eventWriteAnswer a => Sys2Proof.Machine.execEventWriteAnswer a s
  | .recordWriteTimeout us => Sys2Proof.Machine.execRecordWriteTimeout us s
  | .settingsBurst a => Sys2Proof.Machine.execSettingsBurst a s
  | .settingsBurstTimeout us => Sys2Proof.Machine.execSettingsBurstTimeout us s
  | .resetAssert => Sys2Proof.Machine.execResetAssert s
  | .resetRelease base lcTag => Sys2Proof.Machine.execResetRelease base lcTag s
  | .vacRawChange g level => Sys2Proof.Machine.execVacRawChange g level s
  | .vacFall g => Sys2Proof.Machine.execVacFall g s
  | .vacRise g => Sys2Proof.Machine.execVacRise g s
  | .presentRawChange st level => Sys2Proof.Machine.execPresentRawChange st level s
  | .presentRise st => Sys2Proof.Machine.execPresentRise st s
  | .presentFall st => Sys2Proof.Machine.execPresentFall st s
  | .moveTimeout g => Sys2Proof.Machine.execMoveTimeout g s
  | .landingTimeout st => Sys2Proof.Machine.execLandingTimeout st s
  | .guardExpiry st => Sys2Proof.Machine.execGuardExpiry st s
  | .partTimeTick => Sys2Proof.Machine.execPartTimeTick s

end Sys2Proof.Machine
end

