-- ==== Sys2Proof/Safety.lean ====
section
/-! DEFINITION. What a safe run is on this hardware, the laws the part keeps (of the rail R17 and R18, the contexts R22,
the order list R92, the stations R108, the event ring R163), and the words in which the statements speak of a command's
circumstances and its outcome. -/

namespace Sys2Proof.Machine

/-- A step answers a next state: no fault, no refusal. -/
def Safe (s : State) : Prop := ∃ t, step s = .next t

/-- Every step of a run of n steps from s answers a next state. -/
def SafeRun : Nat → State → Prop
  | 0, _ => True
  | n + 1, s => ∃ t, step s = .next t ∧ SafeRun n t

/-! ### The rail (R2, R17, R18) -/

/-- A gantry holds exactly the cells of a run, and it is a run of the rail. -/
def HoldsRun (t : Rail) (g : Gantry) (r : Span) : Prop :=
  r.west ≤ r.east ∧ r.east < 64 ∧ ∀ i, cellAt t i = .held g ↔ r.has i = true

/-- A gantry holds no cell. -/
def HoldsNone (t : Rail) (g : Gantry) : Prop := ∀ i, cellAt t i ≠ .held g

/-- The cells a gantry holds form a single contiguous run or none (R17). -/
def OneRun (t : Rail) (g : Gantry) : Prop := HoldsNone t g ∨ ∃ r, HoldsRun t g r

/-- Every cell HELD by gantry 0 lies west of every cell HELD by gantry 1 (R17). -/
def WestEast (t : Rail) : Prop := ∀ i j, cellAt t i = .held 0 → cellAt t j = .held 1 → i < j

/-- The law of the rail (R17). -/
def RailLaw (t : Rail) : Prop := OneRun t 0 ∧ OneRun t 1 ∧ WestEast t

/-! ### The event ring (R159, R163) -/

/-- P and Q are slots of the ring, the occupancy is at most C - 1, and the queue holds at most eight events (R159,
R160, R163). -/
def RingLaw (f : Feed) : Prop :=
  f.prod < f.ringCap ∧ f.cons < f.ringCap ∧ f.occupancy ≤ f.ringCap - 1 ∧ f.events.length ≤ Config.queueCapacity

/-! ### The order list (R74, R92) -/

/-- A gantry context counts for an order: an ORDER carry of it, or a PICK of it in flight (R92). -/
def counts (c : Ctx) (tag : Nat) : Bool := decide (orderTag c.carry = some tag) || pickOf c tag

/-- The number of gantry contexts that count for an order. -/
def countFor (f : Feed) (tag : Nat) : Nat := bitNat (counts f.ctx[0] tag) + bitNat (counts f.ctx[1] tag)

/-- The panel-count law (R92). -/
def PanelLaw (f : Feed) : Prop := ∀ o ∈ f.orders, o.out ≤ o.remaining ∧ o.out = countFor f o.tag

/-- No more than 32 entries, no tag 0, and no two entries share a tag (R74, R81). -/
def ListLaw (f : Feed) : Prop :=
  f.orders.length ≤ Config.listCapacity ∧ (∀ o ∈ f.orders, o.tag ≠ 0) ∧ (f.orders.map (·.tag)).Nodup

/-! ### The stations (R108) -/

/-- A station is ASSIGNED only while exactly one context has an in-flight PLACE to it, and no two contexts have one
to the same station (R108). -/
def StationLaw (f : Feed) : Prop :=
  ∀ st : StationId,
    ¬(placeTo f.ctx[0] st = true ∧ placeTo f.ctx[1] st = true) ∧
    (f.stations[st].state = .assigned → placeTo f.ctx[0] st = true ∨ placeTo f.ctx[1] st = true)

/-! ### Laws with what keeps them -/

/-- Every cell of an in-flight move's swept span is HELD by its gantry (R17). -/
def FlightHeld (f : Feed) : Prop :=
  ∀ g : Gantry, ∀ m, f.ctx[g].flight = some m → ∀ i < 64, m.west ≤ i → i ≤ m.east → cellAt f.rail i = .held g

/-- The law of the rail with its in-flight moves (R17). -/
def RailInv (f : Feed) : Prop := RailLaw f.rail ∧ (f.part = .run → FlightHeld f)

/-- In RUN a context in IDLE holds exactly the cells of its occupancy span at its known position (R18). -/
def IdleHolds (f : Feed) : Prop :=
  f.part = .run → ∀ g : Gantry, f.ctx[g].state = .idle → ∃ p, f.ctx[g].pos = some p ∧
    ∀ i < 64, cellAt f.rail i = .held g ↔ (f.cfg.occupancy p f.ctx[g].carry).has i = true

/-- What a context holds in each of its states (R21, R22). -/
def CtxLaw (c : Ctx) : Prop :=
  match c.state with
  | .idle => c.pos.isSome = true ∧ c.flight = none ∧ c.halt = none ∧ c.timer = false
  | .moving => c.flight.isSome = true ∧ c.halt = none ∧ c.timer = true ∧ c.wait = .empty
  | .halted => c.halt.isSome = true ∧ c.timer = false ∧ c.wait = .empty

/-- The order of a tag is in the list. -/
def Listed (f : Feed) (tag : Nat) : Prop := ∃ o ∈ f.orders, o.tag = tag

/-- How a context's carry and in-flight move stand to the order list (R22, R25, R37, R67, R92). -/
def CarryLaw (f : Feed) (g : Gantry) : Prop :=
  (∀ tag, orderTag f.ctx[g].carry = some tag → Listed f tag) ∧
  (∀ m, f.ctx[g].flight = some m → m.kind = .pick →
    f.ctx[g].carry = none ∧ (f.ctx[g].state = .moving → Listed f m.tag)) ∧
  (f.ctx[g].state = .idle → f.ctx[g].flight = none) ∧
  (f.gantryOn g = false → f.ctx[g].state = .halted ∧ f.ctx[g].flight = none ∧ f.ctx[g].carry = none)

/-- The law of the order list with what keeps it (R74, R92). -/
def OrderInv (f : Feed) : Prop := ListLaw f ∧ PanelLaw f ∧ CarryLaw f 0 ∧ CarryLaw f 1

/-- The law of the stations with what keeps it (R107, R108). -/
def StationInv (f : Feed) : Prop :=
  StationLaw f ∧
  (∀ g : Gantry, f.ctx[g].state = .idle → f.ctx[g].flight = none) ∧
  ∀ (g : Gantry) (st : StationId), placeTo f.ctx[g] st = true →
    f.stations[st].state = .assigned ∨ f.stations[st].state = .fault

/-! ### Transactions that the upstream port takes -/

/-- The upstream port takes the next transaction presented at once: RESET_N is not asserted, no transaction is in hand
and no posted write is open (R137, R149, R154). -/
abbrev PortFree (s : State) : Prop :=
  s.resetLow = false ∧ s.bus.onBus = none ∧ s.bus.held = none ∧ s.bus.posted = none

/-- A burst that keeps to R140: aligned, within the address space, every word in the one area or in none. -/
abbrev Inside (s : State) (addr : Addr) (len : Nat) (a : Option Area) : Prop :=
  1 ≤ len ∧ len ≤ 16 ∧ addr.toNat % 4 = 0 ∧ addr.toNat + 4 * len ≤ 2 ^ 24 ∧
    ∀ i < len, s.areaAt (addr.toNat + 4 * i) = a

/-- A WRITE of exactly one record on a slot of an area by its owner, with good parity (R141, R142). -/
abbrev OwnerRecord (s : State) (tag : MasterTag) (addr : Addr) (ws : List PWord) (a : Area) : Prop :=
  PortFree s ∧ s.owner a = some tag ∧ ws.length = 4 ∧ addr.toNat % 16 = 0 ∧ Inside s addr 4 (some a) ∧
    ∀ w ∈ ws, parityOk w = true

/-- A control command of the line computer on a slot of the mailbox (R156). -/
abbrev OwnerControl (s : State) (tag : MasterTag) (addr : Addr) : Prop :=
  PortFree s ∧ tag = s.lcTag ∧ addr.toNat % 16 = 0 ∧ s.anchor + 384 ≤ addr.toNat ∧ addr.toNat < s.anchor + 512

/-- The data words of a record. -/
abbrev dataOf (ws : List PWord) : List Word := ws.map (·.data)

/-- The record of words is posted for an area and its master answered DONE, the feed side being as given (R146). -/
def State.posts (s : State) (f : Feed) (tag : MasterTag) (a : Area) (addr : Addr) (ws : List Word) : State :=
  settle { s with
    feed := f
    bus := { s.bus with
      answer := some ⟨.done, []⟩
      posted := some ⟨tag, a, addr.toNat, outWords ws, s.boundNow, false⟩ } }

/-- A control record posted with its result stamped (R156). -/
def State.controls (s : State) (f : Feed) (tag : MasterTag) (addr : Addr) (code : BitVec 8) (r : ControlRec)
    (res : Result) : State :=
  s.posts f tag .control addr (stampWords (controlWords code r) 8 res.code)

/-- A transaction answered without data and not posted, the feed side being as given. -/
def State.answers (s : State) (k : AnswerKind) (f : Feed) : State :=
  settle { s with feed := f, bus := { s.bus with answer := some ⟨k, []⟩ } }

/-- The feed side after a refusal in a watched area (R143). -/
def refusedFeed (tag : MasterTag) (why : Refuse) (a : Area) (f : Feed) : Feed :=
  (f.count .refused).raise .windowRefused tag.toNat (why.code + 256 * a.code)

/-- A transaction held at the port (R147). -/
def State.holds (s : State) (t : Txn) (judged : Option Gantry) : State :=
  settle { s with bus := { s.bus with answer := none, held := some ⟨t, judged, s.boundNow⟩ } }

/-! ### Judged reads -/

/-- The fetch of a judged read of gantry g is in progress at the memory port (R28). -/
abbrev Fetching (s : State) (g : Gantry) (o : PortOp) : Prop :=
  s.bus.port = some o ∧ o.kind = .judged g ∧ o.discard = false ∧ o.op = .read 4

/-- Memory answers the fetch with the words of a record, each with good parity (R31). -/
abbrev Fetched (s : State) (g : Gantry) (o : PortOp) (a : MemAnswer) (ws : List Word) : Prop :=
  Fetching s g o ∧ goodData (s.readAnswer o a) = some ws

/-- A judged read answered DONE with words, the feed side being as given (R29). -/
def State.judged (s : State) (f : Feed) (ws : List Word) : State :=
  settle { s with
    feed := f
    bus := { s.bus with held := none, port := none, answer := some ⟨.done, outWords ws⟩ } }

/-- A substituted record: the record read with its kind and stamps replaced (R30). -/
def substitute (kind : Nat) (ws : List Word) (stamp : Word) (t : Time) : List Word :=
  [setField (wordAt ws 0) 0 4 kind, wordAt ws 1, stamp, t]

/-- A record returned as read, stamped (R30). -/
def returnedAs (ws : List Word) (stamp : Word) (t : Time) : List Word := [wordAt ws 0, wordAt ws 1, stamp, t]

/-- Steps 2 to 6 of the judging are passed: the context is IDLE, the record is a move with the expected toggle, and the
feed hold is released (R29). -/
abbrev Judgeable (s : State) (g : Gantry) (r : MoveRec) : Prop :=
  s.feed.ctx[g].state = .idle ∧ r.toggle = s.feed.ctx[g].expected ∧ r.kind ≠ 0 ∧ s.feed.hold = false

/-- The carry's order, if the carry is an ORDER carry whose order is in the list (R26). -/
def carryOrder (f : Feed) (g : Gantry) : Option Order := (orderTag f.ctx[g].carry).bind f.findOrder

/-- The table of R37, one row a test: whether it fails, and its sub-code. -/
def badMoveTests (f : Feed) (g : Gantry) (r : MoveRec) : List (Bool × BadMove) :=
  [ (decide (¬(1 ≤ r.kind ∧ r.kind ≤ 4)), .kind),
    (decide (f.cfg.railLen ≤ r.target), .range),
    (decide (r.kind = 2) && f.ctx[g].carry.isSome, .carrying),
    (decide (r.kind = 2) && (decide (r.tag = 0) || (f.findOrder r.tag).isNone), .noOrder),
    (decide (r.kind = 2) && (f.findOrder r.tag).any fun o => o.fault.isSome, .orderFaulted),
    (decide (r.kind = 2) && (f.findOrder r.tag).any fun o => decide (r.target ≠ f.cfg.stackPos[o.stack]), .notAtStack),
    (decide (r.kind = 3 ∨ r.kind = 4) && f.ctx[g].carry.isNone, .notCarrying),
    (decide (r.kind = 3) && f.ctx[g].carry.any fun k => decide (k.kind ≠ .order), .notPlaceable),
    (decide (r.kind = 3) && (carryOrder f g).any fun o => decide (r.target ≠ f.cfg.stationPos[o.station]), .notAtStation),
    (decide (r.kind = 4) && decide (r.target ≠ f.cfg.bayPos), .notAtBay) ]

/-- The table of R39, one row a test. -/
def notYetTests (f : Feed) (g : Gantry) (r : MoveRec) : List (Bool × WaitReason) :=
  [ (decide (r.kind = 2) && (f.findOrder r.tag).any fun o => decide (o.out = o.remaining), .orderOut),
    (decide (r.kind = 3) && (carryOrder f g).any fun o => decide (f.stations[o.station].state ≠ .empty), .station),
    (decide (r.kind = 3) && (carryOrder f g).any fun o =>
      decide (f.headOf o.station ≠ some o) || (decide (o.dep ≠ 0) && (f.findOrder o.dep).isSome) || o.fault.isSome,
      .plan) ]

/-- The first row of a table whose test fails. -/
def firstFailing {α : Type} (tests : List (Bool × α)) : Option α := (tests.find? (·.1)).map (·.2)

/-- The order of an ORDER carry is in the list (R37, R92). -/
abbrev CarryListed (f : Feed) (g : Gantry) : Prop :=
  ∀ tag, orderTag f.ctx[g].carry = some tag → (f.findOrder tag).isSome = true

/-- A move that passes steps 1 to 8 of the judging (R40). -/
abbrev Offered (s : State) (g : Gantry) (r : MoveRec) : Prop :=
  Judgeable s g r ∧ CarryListed s.feed g ∧ firstFailing (badMoveTests s.feed g r) = none ∧
    firstFailing (notYetTests s.feed g r) = none

/-- The context of an accepted move (R41). -/
def movingWith (m : Flight) (c : Ctx) : Ctx :=
  { c with state := .moving, flight := some m, expected := !c.expected, timer := true, wait := ⟨none, 0, false⟩ }

/-! ### Completions -/

/-- A completion that matches the in-flight move of a context (R54). -/
abbrev Matches (s : State) (g : Gantry) (m : Flight) (r : CompletionRec) : Prop :=
  s.feed.ctx[g].flight = some m ∧ r.toggle = m.toggle ∧ r.kind = m.kind.code

/-- A clean ending whose shrink to the occupancy span for a carry is granted, leaving a table (R57). -/
abbrev EndsClean (s : State) (g : Gantry) (m : Flight) (r : CompletionRec) (carry : Option Carry) (t : Rail) : Prop :=
  s.feed.ctx[g].state = .moving ∧ Matches s g m r ∧ (r.ending = .reached ∨ r.ending = .short) ∧
    r.reached < s.feed.cfg.railLen ∧ shrink s.feed.rail g (s.feed.cfg.occupancy r.reached carry) = some t

/-- The context of a settled move (R57, step 4). -/
def idleAt (r : CompletionRec) (carry : Option Carry) (c : Ctx) : Ctx :=
  { c with
    state := .idle, pos := some r.reached, carry := carry, flight := none, lastDone := r.toggle, timer := false }

/-- A completion posted with its stamp (R53). -/
def State.completes (s : State) (f : Feed) (g : Gantry) (tag : MasterTag) (addr : Addr) (ws : List PWord)
    (stamp : Stamp) : State :=
  s.posts f tag (.completion g) addr (stampWords (dataOf ws) 3 stamp.code)

/-! ### The settings image -/

/-- The windows that the validation examines, each under the area it watches (R170): those of the enabled gantries and
stations, a REPORT and a NOTICE window of one slot, and the ring of C slots. -/
def examined (c : Settings) (a : Area) : Option Window :=
  match a with
  | .order => some c.orderWin
  | .move g => if g.val < c.gantryCount then some c.moveWin[g] else none
  | .completion g => if g.val < c.gantryCount then some c.completionWin[g] else none
  | .report st => if st.val < c.stationCount then some ⟨c.reportBase[st], 1⟩ else none
  | .notice st => if st.val < c.stationCount then some ⟨c.noticeBase[st], 1⟩ else none
  | .event => some ⟨c.ringBase, 2 ^ c.ringLog⟩
  | .settings => none
  | .status => none
  | .control => none

/-! ### The rail as the rules speak of it -/

/-- A cell of a run is blocking for a gantry, for a reason (R8). -/
def Blocks (t : Rail) (g : Gantry) (run : Span) (i : Nat) : Blocking → Prop
  | .held => run.has i = true ∧ cellAt t i = .held (other g)
  | .reserved => run.has i = true ∧ cellAt t i = .reserved (other g)
  | .crossing => run.has i = true ∧ ∃ j, cellAt t j = .held (other g) ∧ (if g = 0 then j ≤ i else i ≤ j)

/-- Cell b lies beyond cell a on the near side of a gantry: east of it for gantry 0, west of it for gantry 1 (R14). -/
def Beyond (g : Gantry) (a b : Nat) : Prop := if g = 0 then a < b else b < a

/-- A cell of the near side of a gantry that a reserve request acts on (R14). -/
def Near (t : Rail) (g : Gantry) (i : Nat) : Prop :=
  (∃ h, cellAt t h = .held g) ∧ (∀ h, cellAt t h = .held g → Beyond g h i) ∧
  (∃ j, (cellAt t j).owner = some (other g) ∧ Beyond g i j) ∧
  ∀ k, (cellAt t k).owner = some (other g) → (∀ h, cellAt t h = .held g → Beyond g h k) → Beyond g i k

/-- The state of some cell changed into or out of HELD or RESERVED of a gantry (R47). -/
def ChangesOf (h : Gantry) (old new : Rail) : Prop :=
  ∃ i, cellAt old i ≠ cellAt new i ∧ ((cellAt old i).owner = some h ∨ (cellAt new i).owner = some h)

end Sys2Proof.Machine
end

