-- ==== Sys2Proof/Certificates/Slice0/Obligations.lean ====
section
/-! DEFINITION. The statements for the provers, from the rules of spec/: what each command does, what the shared
operations of the rail, the orders, the stations and the events do, and the laws every step keeps. -/

open Sys2Proof Sys2Proof.Machine

/-! ### The step -/

/-- Step runs the command at the front of the queue on the state with the queue's rest; with nothing waiting the part
idles (log 22). -/
def Obligations.StepRunsTheFrontCommand : Prop :=
  (∀ (c : Instr) (s : State) (rest : List Instr),
    step { s with pending := c :: rest } = exec c { s with pending := rest }) ∧
  ∀ s : State, s.pending = [] → step s = .next s

/-- Every command answers a next state in every state, and leaves the queue alone. -/
def Obligations.EveryCommandAnswersNext : Prop :=
  ∀ (c : Instr) (s : State), ∃ t, exec c s = .next t ∧ t.pending = s.pending

/-- Each command that stands for a transaction does what its transaction does, presented as any other (log 12). -/
def Obligations.TransactionCommandsPresentTheirTransaction : Prop :=
  ∀ (s : State) (tag : MasterTag) (addr : Addr) (ws : List PWord) (n : Nat) (code : BitVec 8) (r : ControlRec),
    exec (.moveRead tag addr) s = exec (.forwardRaw (readTxn tag addr 4)) s ∧
    exec (.statusRead tag addr n) s = exec (.forwardRaw (readTxn tag addr n)) s ∧
    exec (.completionWrite tag addr ws) s = exec (.forwardRaw (writeTxn tag addr ws)) s ∧
    exec (.orderWrite tag addr ws) s = exec (.forwardRaw (writeTxn tag addr ws)) s ∧
    exec (.reportWrite tag addr ws) s = exec (.forwardRaw (writeTxn tag addr ws)) s ∧
    exec (.ownerWritePosted tag addr ws) s = exec (.forwardRaw (writeTxn tag addr ws)) s ∧
    exec (.clearHalt tag addr r) s = exec (.forwardRaw (controlTxn tag addr 1 r)) s ∧
    exec (.cancelOrder tag addr r) s = exec (.forwardRaw (controlTxn tag addr 2 r)) s ∧
    exec (.unblockStation tag addr r) s = exec (.forwardRaw (controlTxn tag addr 3 r)) s ∧
    exec (.ackEvents tag addr r) s = exec (.forwardRaw (controlTxn tag addr 4 r)) s ∧
    exec (.resetFeed tag addr r) s = exec (.forwardRaw (controlTxn tag addr 5 r)) s ∧
    exec (.reloadSettings tag addr r) s = exec (.forwardRaw (controlTxn tag addr 6 r)) s ∧
    exec (.unknownCommand tag addr code r) s = exec (.forwardRaw (controlTxn tag addr code r)) s

/-! ### The rail claim table -/

/-- R4: the extent, half of an odd length rounded up, and the panel length that applies to each carry. -/
def Obligations.ExtentOfAPanelLength : Prop :=
  ∀ (c : Settings) (len half tag : Nat), (2 * half = len ∨ 2 * half = len + 1) →
    c.extent len = max c.halfWidth half + c.margin ∧
    (len ≤ 2 * c.halfWidth → c.extent len = c.halfWidth + c.margin) ∧
    (100 ≤ c.halfWidth → c.halfWidth ≤ 1500 → c.margin ≤ 1000 → len ≤ 3200 →
      100 ≤ c.extent len ∧ c.extent len ≤ 2600) ∧
    c.carryLen none = 0 ∧
    c.carryLen (some ⟨tag, len, .order⟩) = len ∧
    c.carryLen (some ⟨tag, len, .orphan⟩) = len ∧
    c.carryLen (some ⟨tag, len, .unknown⟩) = c.cmax

/-- R5: the occupancy span covers [p - e, p + e] clipped to the rail; it contains the cell of p and stays below N. -/
def Obligations.OccupancySpanCoversTheGantry : Prop :=
  ∀ (c : Settings) (p : Nat) (carry : Option Carry), 0 < c.cellLen → p < c.cellCount * c.cellLen →
    ((c.occupancy p carry).west : Int) = max ((p : Int) - c.extent (c.carryLen carry)) 0 / c.cellLen ∧
    (c.occupancy p carry).east =
      min (p + c.extent (c.carryLen carry)) (c.cellCount * c.cellLen - 1) / c.cellLen ∧
    (c.occupancy p carry).west ≤ p / c.cellLen ∧ p / c.cellLen ≤ (c.occupancy p carry).east ∧
    (c.occupancy p carry).east < c.cellCount ∧
    ∀ i, (c.occupancy p carry).has i = true ↔
      (c.occupancy p carry).west ≤ i ∧ i ≤ (c.occupancy p carry).east

/-- R6: the swept span of a move from p0 to p1; it contains the occupancy spans at both ends for the carry and, for a
PICK, the one at p1 for the order's panel. -/
def Obligations.SweptSpanCoversTheMove : Prop :=
  ∀ (f : Feed) (g : Gantry) (k : MoveKind) (r : MoveRec) (p0 : Nat) (o : Order),
    0 < f.cfg.cellLen → p0 < f.cfg.railLen → r.target < f.cfg.railLen → f.ctx[g].pos = some p0 →
    (k = .pick → f.findOrder r.tag = some o) →
    let own := f.cfg.carryLen f.ctx[g].carry
    let e := f.cfg.extent (if k = .pick then max own o.len else own)
    ((moveSpan g k r f).west : Int) = max ((min p0 r.target : Int) - e) 0 / f.cfg.cellLen ∧
    (moveSpan g k r f).east = min (max p0 r.target + e) (f.cfg.railLen - 1) / f.cfg.cellLen ∧
    (∀ i, (f.cfg.occupancy p0 f.ctx[g].carry).has i = true → (moveSpan g k r f).has i = true) ∧
    (∀ i, (f.cfg.occupancy r.target f.ctx[g].carry).has i = true → (moveSpan g k r f).has i = true) ∧
    (k = .pick → ∀ i, (f.cfg.occupancy r.target (some ⟨o.tag, o.len, .order⟩)).has i = true →
      (moveSpan g k r f).has i = true) ∧
    (r.target = p0 → moveSpan g k r f = f.cfg.cover p0 p0 e)

/-- R8: a claim is granted when no cell of the run is blocking, and then the gantry holds exactly the run; otherwise
the answer names the blocking cell nearest the requester and the first kind that applies to it, and the table stands.
-/
def Obligations.ClaimIsGrantedOrNamesTheNearestBlockingCell : Prop :=
  ∀ (t : Rail) (g : Gantry) (run : Span), run.west ≤ run.east → run.east < 64 →
    ((∀ i k, ¬Blocks t g run i k) → ∃ t', claim t g run = .granted t' ∧ HoldsRun t' g run ∧
      ∀ i, (run.has i = true → cellAt t' i = .held g) ∧
        (run.has i = false → (cellAt t i).owner = some g → cellAt t' i = .free) ∧
        (run.has i = false → (cellAt t i).owner ≠ some g → cellAt t' i = cellAt t i)) ∧
    ((∃ i k, Blocks t g run i k) → ∃ i k, claim t g run = .conflict i k ∧ Blocks t g run i k ∧
      (∀ j k', Blocks t g run j k' → if g = 0 then i ≤ j else j ≤ i) ∧
      ∀ k', Blocks t g run i k' → k.code ≤ k'.code)

/-- R11 to R13, R15: a shrink is granted when every cell of the span is held by the gantry, and frees its held cells
outside it; a freeze or a withdraw frees the reserved cells and keeps the held ones; a reseat meets CONFLICT before
CROSSED and, granted, leaves the gantry holding exactly the span. -/
def Obligations.ShrinkFreezeAndReseat : Prop :=
  (∀ (t : Rail) (g : Gantry) (o : Span), o.east < 64 →
       ((∀ i, o.has i = true → cellAt t i = .held g) → ∃ t', shrink t g o = some t' ∧
         ∀ i, (cellAt t i = .held g → o.has i = false → cellAt t' i = .free) ∧
           (cellAt t i ≠ .held g ∨ o.has i = true → cellAt t' i = cellAt t i)) ∧
       ((∃ i, o.has i = true ∧ cellAt t i ≠ .held g) → shrink t g o = none) ∧
       ∀ i, (cellAt t i = .reserved g → cellAt (unreserve t g) i = .free) ∧
         (cellAt t i ≠ .reserved g → cellAt (unreserve t g) i = cellAt t i)) ∧
  (∀ (t : Rail) (g : Gantry) (o : Span), o.west ≤ o.east → o.east < 64 →
       ((∃ i, o.has i = true ∧ (cellAt t i).owner = some (other g)) → reseat t g o = .conflict) ∧
       ((∀ i, o.has i = true → (cellAt t i).owner ≠ some (other g)) →
         ((∃ i j, o.has i = true ∧ cellAt t j = .held (other g) ∧ ¬Beyond g i j) → reseat t g o = .crossed) ∧
         ((∀ i j, o.has i = true → cellAt t j = .held (other g) → Beyond g i j) →
           ∃ t', reseat t g o = .granted t' ∧ HoldsRun t' g o ∧
             ∀ i, (o.has i = false → (cellAt t i).owner = some g → cellAt t' i = .free) ∧
               (o.has i = false → (cellAt t i).owner ≠ some g → cellAt t' i = cellAt t i))))

/-- R14: a reserve request reserves every FREE cell of the near side, which is then wholly RESERVED, and no other. -/
def Obligations.ReserveTakesTheNearSide : Prop :=
  ∀ (t : Rail) (g : Gantry) (i : Nat),
    (Near t g i → cellAt (reserve t g) i = .reserved g) ∧
    (¬Near t g i → cellAt (reserve t g) i = cellAt t i)

/-- R47: a context's blocked-by-other flag is cleared when, and only when, a cell's state changes into or out of HELD
or RESERVED of the other gantry; nothing else of the feed side changes with the table. -/
def Obligations.RailChangeClearsTheBlockedFlag : Prop :=
  ∀ (f : Feed) (t : Rail) (g : Gantry),
    (ChangesOf (other g) f.rail t →
      (f.setRail t).ctx[g] = { f.ctx[g] with wait := { f.ctx[g].wait with blocked := false } }) ∧
    (¬ChangesOf (other g) f.rail t → (f.setRail t).ctx[g] = f.ctx[g]) ∧
    (f.setRail t) = { f with rail := t, ctx := (f.setRail t).ctx }

/-! ### Judged reads -/

/-- R31: bad memory data give a substituted WAIT, MEMORY, and raise the memory-fault run count; the raise from 2 to 3
halts the context, or is a further fault of a halted one. -/
def Obligations.JudgeMoveWithBadDataWaitsAndCounts : Prop :=
  ∀ (s : State) (g : Gantry) (o : PortOp) (a : MemAnswer),
    Fetching s g o → goodData (s.readAnswer o a) = none →
    ∃ f, exec (.judgeMove a) s =
        .next (s.judged f [pack [(0, 4, 8)], 0, stampWord 2 0 4 255 255, s.feed.time]) ∧
      (s.feed.ctx[g].memRun < 2 →
        f = s.feed.modCtx g fun c => { c with memRun := s.feed.ctx[g].memRun + 1 }) ∧
      (s.feed.ctx[g].memRun = 2 → s.feed.ctx[g].state ≠ .halted →
        f = (s.feed.modCtx g fun c => { c with memRun := 3 }).haltCtx g .memory none) ∧
      (s.feed.ctx[g].memRun = 2 → s.feed.ctx[g].state = .halted →
        f = (s.feed.modCtx g fun c => { c with memRun := 3 }).furtherFault g .memory) ∧
      (s.feed.ctx[g].memRun = 3 → f = s.feed)

/-- R32 to R36, and R31's last clause: the answers given before the move itself is examined. Each sets the memory-
fault run count to 0 and changes nothing else. That rows 2 and 3 of R93 leave WAIT, HOLD in its place is the model's
reading (log 33). -/
def Obligations.JudgeMoveStopsRepeatsOrWaits : Prop :=
  ∀ (s : State) (g : Gantry) (o : PortOp) (a : MemAnswer) (ws : List Word), Fetched s g o a ws →
    let f := s.feed.modCtx g fun c => { c with memRun := 0 }
    let c := s.feed.ctx[g]
    let r := MoveRec.ofWords ws
    let t := s.feed.time
    (∀ h, c.state = .halted → c.halt = some h → exec (.judgeMove a) s = .next (s.judged f
      (substitute 9 ws (stampWord 3 (if h.reason = .badMove then (h.sub.map BadMove.code).getD 0 else 0)
        h.reason.code 255 255) t))) ∧
    (∀ m, c.state ≠ .halted → r.toggle ≠ c.expected → c.flight = some m → m.toggle = r.toggle →
      m.kind.code = r.kind → m.target = r.target →
      exec (.judgeMove a) s = .next (s.judged f (returnedAs ws (stampWord 4 0 0 m.west m.east) t))) ∧
    (c.state ≠ .halted → r.toggle ≠ c.expected →
      (∀ m, c.flight = some m → ¬(m.toggle = r.toggle ∧ m.kind.code = r.kind ∧ m.target = r.target)) →
      exec (.judgeMove a) s = .next (s.judged f (returnedAs ws (stampWord 4 0 0 255 255) t))) ∧
    (c.state ≠ .halted → r.toggle = c.expected → r.kind = 0 →
      exec (.judgeMove a) s = .next (s.judged f (substitute 8 ws (stampWord 2 0 16 255 255) t))) ∧
    (c.state = .moving → r.toggle = c.expected → r.kind ≠ 0 →
      exec (.judgeMove a) s = .next (s.judged f (substitute 8 ws (stampWord 2 0 17 255 255) t))) ∧
    (c.state = .idle → r.toggle = c.expected → r.kind ≠ 0 → s.feed.hold = true →
      exec (.judgeMove a) s = .next (s.judged f (substitute 8 ws (stampWord 2 0 18 255 255) t)))

/-- R37, R38: the first test of the table that fails gives the sub-code of a STOP, BAD_MOVE, and the context halts
with it. The order of an ORDER carry is taken to be in the list, as R37 says it is. -/
def Obligations.JudgeMoveStopsABadMove : Prop :=
  ∀ (s : State) (g : Gantry) (o : PortOp) (a : MemAnswer) (ws : List Word) (why : BadMove),
    Fetched s g o a ws → Judgeable s g (.ofWords ws) → CarryListed s.feed g →
    firstFailing (badMoveTests s.feed g (.ofWords ws)) = some why →
    exec (.judgeMove a) s = .next (s.judged
      ((s.feed.modCtx g fun c => { c with memRun := 0 }).haltCtx g .badMove (some why))
      (substitute 9 ws (stampWord 3 why.code 3 255 255) s.feed.time))

/-- R39: a possible move that may not start now waits with the reason of the first test that fails, and changes
nothing but the memory-fault run count that good data set to 0. -/
def Obligations.JudgeMoveWaitsUntilTheMoveMayStart : Prop :=
  ∀ (s : State) (g : Gantry) (o : PortOp) (a : MemAnswer) (ws : List Word) (why : WaitReason),
    Fetched s g o a ws → Judgeable s g (.ofWords ws) → CarryListed s.feed g →
    firstFailing (badMoveTests s.feed g (.ofWords ws)) = none →
    firstFailing (notYetTests s.feed g (.ofWords ws)) = some why →
    exec (.judgeMove a) s = .next (s.judged (s.feed.modCtx g fun c => { c with memRun := 0 })
      (substitute 8 ws (stampWord 2 0 why.code 255 255) s.feed.time))

/-- R40 to R43, R103, R115: a move whose claim is granted is accepted: the in-flight move of each kind, the order's
out count for a PICK, the station and its landing notice for a PLACE, and nothing else. -/
def Obligations.JudgeMoveAcceptsAGrantedMove : Prop :=
  ∀ (s : State) (g : Gantry) (o : PortOp) (a : MemAnswer) (ws : List Word) (t : Rail) (w e : Nat),
    let r := MoveRec.ofWords ws
    let f := (s.feed.modCtx g fun c => { c with memRun := 0 }).setRail t
    let carried := (s.feed.ctx[g].carry.map (·.tag)).getD 0
    let now := s.feed.time
    Fetched s g o a ws → Offered s g r →
    (r.kind = 1 → moveSpan g .travel r s.feed = ⟨w, e⟩ → claim s.feed.rail g ⟨w, e⟩ = .granted t →
      exec (.judgeMove a) s = .next (s.judged
        { f.modCtx g (movingWith ⟨.travel, r.toggle, r.target, 0, none, none, w, e, now⟩) with blockReport := .armed }
        (returnedAs ws (stampWord 1 0 0 w e) now))) ∧
    (r.kind = 4 → moveSpan g .reject r s.feed = ⟨w, e⟩ → claim s.feed.rail g ⟨w, e⟩ = .granted t →
      exec (.judgeMove a) s = .next (s.judged
        { f.modCtx g (movingWith ⟨.reject, r.toggle, r.target, carried, none, none, w, e, now⟩) with
          blockReport := .armed }
        (returnedAs ws (stampWord 1 0 0 w e) now))) ∧
    (∀ x, r.kind = 2 → s.feed.findOrder r.tag = some x → moveSpan g .pick r s.feed = ⟨w, e⟩ →
      claim s.feed.rail g ⟨w, e⟩ = .granted t →
      exec (.judgeMove a) s = .next (s.judged
        { (f.modCtx g (movingWith ⟨.pick, r.toggle, r.target, r.tag, some x.len, none, w, e, now⟩)).modOrder r.tag
            (fun x => { x with out := x.out + 1 }) with blockReport := .armed }
        (returnedAs ws (stampWord 1 0 0 w e) now))) ∧
    (∀ x, r.kind = 3 → carryOrder s.feed g = some x → moveSpan g .place r s.feed = ⟨w, e⟩ →
      claim s.feed.rail g ⟨w, e⟩ = .granted t →
      exec (.judgeMove a) s = .next (s.judged
        { (f.modCtx g (movingWith ⟨.place, r.toggle, r.target, carried, none, some x.station, w, e, now⟩)).modStation
            x.station (fun y => { y with
              state := .assigned, early := false, noticeToggle := !y.noticeToggle, noticeTag := x.tag,
              noticeBatch := x.batch - x.remaining + 1 }) with
          blockReport := .armed
          notices := s.feed.notices ++ [⟨x.station, !s.feed.stations[x.station].noticeToggle, x.tag, x.len,
            x.batch - x.remaining + 1, g, now⟩] }
        (returnedAs ws (stampWord 1 0 0 w e) now)))

/-- R45, R46, R48, R129: a move whose claim meets a blocking cell waits for rail: the wait record is counted or begun
anew with a withdraw, a count at or over the threshold reserves and the one that reaches it raises STARVED, and
a mutual block is reported once. -/
def Obligations.JudgeMoveWaitsForRail : Prop :=
  ∀ (s : State) (g : Gantry) (o : PortOp) (a : MemAnswer) (ws : List Word) (k : MoveKind) (cell : Nat)
    (kind : Blocking) (n : Nat) (f1 f2 : Feed),
    let r := MoveRec.ofWords ws
    let id : WaitId := ⟨r.toggle, k, r.target⟩
    let f := s.feed.modCtx g fun c => { c with memRun := 0 }
    let bothStuck := f2.blockReport = .armed ∧ f2.cfg.threshold ≤ n ∧ f2.ctx[g].wait.blocked = true ∧
      f2.gantryOn (other g) = true ∧ f2.ctx[other g].state = .idle ∧
      f2.cfg.threshold ≤ f2.ctx[other g].wait.count ∧ f2.ctx[other g].wait.blocked = true
    Fetched s g o a ws → Offered s g r → k.code = r.kind →
    claim s.feed.rail g (moveSpan g k r s.feed) = .conflict cell kind →
    ((s.feed.ctx[g].wait.id = some id ∧ n = min (s.feed.ctx[g].wait.count + 1) 255 ∧
        f1 = f.modCtx g fun c => { c with wait := ⟨some id, n, true⟩ }) ∨
      (s.feed.ctx[g].wait.id ≠ some id ∧ n = 1 ∧
        f1 = (f.setRail (unreserve f.rail g)).modCtx g fun c => { c with wait := ⟨some id, n, true⟩ })) →
    ((n < f1.cfg.threshold ∧ f2 = f1) ∨
      (n = f1.cfg.threshold ∧ f2 = (f1.setRail (reserve f1.rail g)).raise .starved g.val kind.code) ∨
      (f1.cfg.threshold < n ∧ f2 = f1.setRail (reserve f1.rail g))) →
    (bothStuck → exec (.judgeMove a) s = .next (s.judged
      { f2.raise .mutualBlock g.val kind.code with blockReport := .spent }
      (substitute 8 ws (stampWord 2 kind.code 22 cell cell) s.feed.time))) ∧
    (¬bothStuck → exec (.judgeMove a) s = .next (s.judged f2
      (substitute 8 ws (stampWord 2 kind.code 22 cell cell) s.feed.time)))

/-! ### Completions and the grip -/

/-- R55, R56: a duplicate has no effect; a completion that matches nothing halts an IDLE or MOVING context and is a
further fault of a HALTED one, an in-flight move staying in flight. -/
def Obligations.CompletionWriteDuplicateOrMismatch : Prop :=
  ∀ (s : State) (g : Gantry) (tag : MasterTag) (addr : Addr) (ws : List PWord),
    let r := CompletionRec.ofWords (dataOf ws)
    let c := s.feed.ctx[g]
    OwnerRecord s tag addr ws (.completion g) →
    (c.state = .idle → r.toggle = c.lastDone →
      exec (.completionWrite tag addr ws) s = .next (s.completes s.feed g tag addr ws .duplicate)) ∧
    (c.state = .idle → r.toggle ≠ c.lastDone →
      exec (.completionWrite tag addr ws) s =
        .next (s.completes (s.feed.haltCtx g .mismatch none) g tag addr ws .mismatch)) ∧
    (c.state = .moving → (r.ending = .unknown ∨ ∀ m, ¬Matches s g m r) →
      exec (.completionWrite tag addr ws) s =
        .next (s.completes (s.feed.haltCtx g .mismatch none) g tag addr ws .mismatch)) ∧
    (c.state = .halted → (∀ m, ¬Matches s g m r) →
      exec (.completionWrite tag addr ws) s =
        .next (s.completes (s.feed.furtherFault g .mismatch) g tag addr ws .mismatch))

/-- R57, R60, R61: a clean ending of a TRAVEL or a REJECT: the new position, the carry and the order by the outcome
and the grip, the counter REJECTS, the return to IDLE and the grip check. -/
def Obligations.CompletionWriteSettlesTravelAndReject : Prop :=
  ∀ (s : State) (g : Gantry) (tag : MasterTag) (addr : Addr) (ws : List PWord) (m : Flight) (t : Rail),
    let r := CompletionRec.ofWords (dataOf ws)
    let carry := s.feed.ctx[g].carry
    let vac := s.feed.vac[g].level
    let f := s.feed.setRail t
    let result (f : Feed) (carry : Option Carry) :=
      s.completes ((f.modCtx g (idleAt r carry)).gripCheck g) g tag addr ws .taken
    OwnerRecord s tag addr ws (.completion g) →
    (m.kind = .travel → EndsClean s g m r carry t →
      exec (.completionWrite tag addr ws) s = .next (result f carry)) ∧
    (m.kind = .reject → r.ending = .reached → vac = false → EndsClean s g m r none t →
      (∀ x, orderTag carry = some x →
        exec (.completionWrite tag addr ws) s =
          .next (result ((f.modOrder x fun o => { o with out := o.out - 1 }).count .rejects) none)) ∧
      (orderTag carry = none → exec (.completionWrite tag addr ws) s = .next (result (f.count .rejects) none))) ∧
    (m.kind = .reject → r.ending = .reached → vac = true → EndsClean s g m r carry t →
      exec (.completionWrite tag addr ws) s = .next (result (f.raise .rejectNotReleased g.val 0) carry)) ∧
    (m.kind = .reject → r.ending = .short → EndsClean s g m r carry t →
      exec (.completionWrite tag addr ws) s = .next (result f carry))

/-- R57, R58: a clean ending of a PICK: an ORDER carry, a mispick, or the out count released. -/
def Obligations.CompletionWriteSettlesPick : Prop :=
  ∀ (s : State) (g : Gantry) (tag : MasterTag) (addr : Addr) (ws : List PWord) (m : Flight) (t : Rail) (len : Nat),
    let r := CompletionRec.ofWords (dataOf ws)
    let vac := s.feed.vac[g].level
    let f := s.feed.setRail t
    let result (f : Feed) (carry : Option Carry) :=
      s.completes ((f.modCtx g (idleAt r carry)).gripCheck g) g tag addr ws .taken
    OwnerRecord s tag addr ws (.completion g) → m.kind = .pick → m.len = some len →
    (r.ending = .reached → vac = true → EndsClean s g m r (some ⟨m.tag, len, .order⟩) t →
      exec (.completionWrite tag addr ws) s = .next (result f (some ⟨m.tag, len, .order⟩))) ∧
    (r.ending = .reached → vac = false → EndsClean s g m r none t →
      exec (.completionWrite tag addr ws) s = .next (result (f.mispicked m.tag) none)) ∧
    (r.ending = .short → EndsClean s g m r none t →
      exec (.completionWrite tag addr ws) s =
        .next (result (f.modOrder m.tag fun o => { o with out := o.out - 1 }) none))

/-- R57, R59, R104, R105, R107: a clean ending of a PLACE: the panel released and the landing taken, or the carry kept
and the placement returned; the station is stepped only from ASSIGNED. -/
def Obligations.CompletionWriteSettlesPlace : Prop :=
  ∀ (s : State) (g : Gantry) (tag : MasterTag) (addr : Addr) (ws : List PWord) (m : Flight) (t : Rail)
    (st : StationId) (x : Nat),
    let r := CompletionRec.ofWords (dataOf ws)
    let carry := s.feed.ctx[g].carry
    let vac := s.feed.vac[g].level
    let f := s.feed.setRail t
    let y := s.feed.stations[st]
    let landing (f : Feed) : Feed :=
      if y.state = .assigned then
        f.modStation st fun y => { y with
          state := if y.early then .loaded else .landing
          landingStart := if y.early then y.landingStart else some s.feed.time
          early := false }
      else f
    let back (f : Feed) : Feed :=
      if y.state = .assigned then
        if y.present then f.blockStation st .unexpectedPanel
        else f.modStation st fun y => { y with state := .empty, early := false }
      else f
    let result (f : Feed) (carry : Option Carry) :=
      s.completes ((f.modCtx g (idleAt r carry)).gripCheck g) g tag addr ws .taken
    OwnerRecord s tag addr ws (.completion g) → m.kind = .place → m.station = some st → orderTag carry = some x →
    (r.ending = .reached → vac = false → EndsClean s g m r none t →
      exec (.completionWrite tag addr ws) s = .next (result (landing (f.placedPanel x)) none)) ∧
    (r.ending = .reached → vac = true → EndsClean s g m r carry t →
      exec (.completionWrite tag addr ws) s =
        .next (result (back (f.raise .placeNotReleased g.val st.val)) carry)) ∧
    (r.ending = .short → EndsClean s g m r carry t →
      exec (.completionWrite tag addr ws) s = .next (result (back f) carry))

/-- R62, R64, R65: a span fault and a drive fault set the position, halt the context and close the move unsettled; a
late completion does the same without a halt. -/
def Obligations.CompletionWriteClosesUnsettled : Prop :=
  ∀ (s : State) (g : Gantry) (tag : MasterTag) (addr : Addr) (ws : List PWord) (m : Flight),
    let r := CompletionRec.ofWords (dataOf ws)
    let pos := if r.reached < s.feed.cfg.railLen then some r.reached else none
    let f := s.feed.modCtx g fun c => { c with pos := pos }
    let closed (f : Feed) := (f.closeFlight g m).modCtx g fun c => { c with lastDone := r.toggle }
    let carry := settledCarry m r.ending s.feed.vac[g].level s.feed.ctx[g].carry
    OwnerRecord s tag addr ws (.completion g) → Matches s g m r →
    (s.feed.ctx[g].state = .moving → (r.ending = .reached ∨ r.ending = .short) →
      (s.feed.cfg.railLen ≤ r.reached ∨
        shrink s.feed.rail g (s.feed.cfg.occupancy r.reached carry) = none) →
      exec (.completionWrite tag addr ws) s =
        .next (s.completes (closed (f.haltCtx g .span none)) g tag addr ws .taken)) ∧
    (s.feed.ctx[g].state = .moving → r.ending = .fault →
      exec (.completionWrite tag addr ws) s =
        .next (s.completes (closed (f.haltCtx g .driveFault none)) g tag addr ws .taken)) ∧
    (s.feed.ctx[g].state = .halted →
      exec (.completionWrite tag addr ws) s = .next (s.completes (closed f) g tag addr ws .late))

/-- R66, R67, R106: the unsettled close, by the move's kind and the grip. -/
def Obligations.UnsettledCloseGoesByTheGrip : Prop :=
  ∀ (f : Feed) (g : Gantry) (m : Flight) (len : Nat) (st : StationId),
    let vac := f.vac[g].level
    let carry := f.ctx[g].carry
    let cleared (f : Feed) (carry : Option Carry) := f.modCtx g fun c => { c with carry := carry, flight := none }
    let stepped : Feed :=
      if f.stations[st].state = .assigned then
        (f.modStation st fun y => { y with
          state := .fault, reason := some .deliveryUnknown, guardStart := none, landingStart := none,
          early := false }).raise .stationFault st.val 5
      else f
    (m.kind = .travel → f.closeFlight g m = cleared f carry) ∧
    (m.kind = .pick → m.len = some len → vac = true → (f.findOrder m.tag).isSome = true →
      f.closeFlight g m = cleared f (some ⟨m.tag, len, .order⟩)) ∧
    (m.kind = .pick → m.len = some len → vac = true → f.findOrder m.tag = none →
      f.closeFlight g m = cleared f (some ⟨m.tag, len, .orphan⟩)) ∧
    (m.kind = .pick → vac = false →
      f.closeFlight g m = cleared (f.modOrder m.tag fun o => { o with out := o.out - 1 }) none) ∧
    (m.kind = .place → m.station = some st → vac = true → f.closeFlight g m = cleared stepped carry) ∧
    (m.kind = .place → m.station = some st → vac = false → ∀ x, orderTag carry = some x →
      f.closeFlight g m = cleared (stepped.lostPanel x) none) ∧
    (m.kind = .place → m.station = some st → vac = false → orderTag carry = none →
      f.closeFlight g m = cleared stepped none) ∧
    (m.kind = .reject → vac = true → f.closeFlight g m = cleared f carry) ∧
    (m.kind = .reject → vac = false → ∀ x, orderTag carry = some x →
      f.closeFlight g m = cleared (f.modOrder x fun o => { o with out := o.out - 1 }) none) ∧
    (m.kind = .reject → vac = false → orderTag carry = none → f.closeFlight g m = cleared f none)

/-- R63, R70, R71, R85, R93, R123: what the grip check does, and what a DROP and an UNEXPECTED_GRIP change. A DROP leaves its
order FAULTED with the first reason kept and its out count lowered, and HOLD asserted, so that a judged read of the other
gantry meets WAIT, HOLD, and STOP, ORDER_FAULTED or WAIT, PLAN once HOLD is released (log 33). -/
def Obligations.GripCheckDropAndUnexpectedGrip : Prop :=
  ∀ (f : Feed) (g : Gantry),
    let carry := f.ctx[g].carry
    let vac := f.vac[g].level
    let halt (f : Feed) (why : HaltReason) :=
      if f.ctx[g].state = .halted then f.furtherFault g why else f.haltCtx g why none
    let emptied := f.modCtx g fun c => { c with carry := none }
    (carry.isSome = true → vac = true → f.gripCheck g = f) ∧
    (carry = none → vac = false → f.gripCheck g = f) ∧
    (carry.isSome = true → vac = false → f.gripCheck g = f.drop g) ∧
    (carry = none → vac = true → f.gripCheck g = f.unexpectedGrip g) ∧
    (∀ x, orderTag carry = some x → f.drop g = halt (emptied.lostPanel x) .drop) ∧
    (orderTag carry = none → f.drop g = halt emptied .drop) ∧
    (∀ x o, orderTag carry = some x → f.findOrder x = some o →
      (f.drop g).findOrder x = some { o with out := o.out - 1, fault := some (o.fault.getD .lost) }) ∧
    (f.part = .run → f.gantryOn g = true → (f.drop g).hold = true) ∧
    f.unexpectedGrip g =
      halt (f.modCtx g fun c => { c with carry := some ⟨0, f.cfg.cmax, .unknown⟩ }) .unexpectedGrip

/-- R69 to R71: a filtered fall or rise, due after the filter time, sets the level and acts by the in-flight move and
the carry. That the change may be taken later than it is due, and that the filter time is measured on the part's time,
are the model's choices (logs 9, 35). A change to the level that stands already has no effect (log 10). -/
def Obligations.VacChangeActsByMoveAndCarry : Prop :=
  (∀ (s : State) (g : Gantry),
    (s.feed.vac[g].level = false → exec (.vacFall g) s = .next (settle s)) ∧
    (s.feed.vac[g].level = true → exec (.vacRise g) s = .next (settle s))) ∧
  ∀ (s : State) (g : Gantry) (t0 : Time) (level : Bool),
    let f := { s.feed with vac := s.feed.vac.set g ⟨level, none⟩ }
    let grips := ∃ m, s.feed.ctx[g].flight = some m ∧ m.kind ≠ .travel
    let picks := ∃ m, s.feed.ctx[g].flight = some m ∧ m.kind = .pick
    let next (f : Feed) : Host.Outcome State Fault Refusal := .next (settle { s with feed := f })
    s.resetLow = false → s.feed.part = .run → s.feed.gantryOn g = true → s.feed.vac[g].level ≠ level →
    s.vacRaw[g] = level → s.feed.vac[g].since = some t0 →
    s.feed.cfg.filterTime ≤ (s.feed.time - t0).toNat →
    (level = false →
      (grips → exec (.vacFall g) s = next f) ∧
      (¬grips → s.feed.ctx[g].carry.isSome = true → exec (.vacFall g) s = next (f.drop g)) ∧
      (s.feed.ctx[g].carry = none → exec (.vacFall g) s = next f)) ∧
    (level = true →
      (picks → exec (.vacRise g) s = next f) ∧
      (s.feed.ctx[g].carry.isSome = true → exec (.vacRise g) s = next f) ∧
      (¬picks → s.feed.ctx[g].carry = none → exec (.vacRise g) s = next (f.unexpectedGrip g)))

/-! ### The order list -/

/-- R78 to R81: the first test of the table that fails refuses the request; a good record is retried on a full list
and admitted at the end of any other. -/
def Obligations.OrderWriteIsRefusedRetriedOrAdmitted : Prop :=
  ∀ (s : State) (tag : MasterTag) (addr : Addr) (ws : List PWord),
    let r := OrderRec.ofWords (dataOf ws)
    let f := s.feed
    let picking (g : Gantry) := f.ctx[g].flight.any fun m => decide (m.kind = .pick ∧ m.tag = r.tag)
    let tests : List (Bool × OrderRefusal) :=
      [ (decide (r.tag = 0) || (f.findOrder r.tag).isSome || picking 0 || picking 1, .dupTag),
        (decide (f.cfg.stackCount ≤ r.stack), .badStack),
        (decide (f.cfg.stationCount ≤ r.station), .badStation),
        (decide (r.len < 200 ∨ f.cfg.cmax < r.len), .badLength),
        (decide (r.batch = 0 ∨ 8 < r.batch), .badBatch),
        (decide (r.dep ≠ 0) && (decide (r.dep = r.tag) || (f.findOrder r.dep).isNone), .badDependency) ]
    OwnerRecord s tag addr ws .order →
    (∀ why, firstFailing tests = some why → exec (.orderWrite tag addr ws) s =
      .next (s.answers .refuse ((f.count .refused).raise .orderRefused r.tag why.code))) ∧
    (firstFailing tests = none → 32 ≤ f.orders.length →
      exec (.orderWrite tag addr ws) s = .next (s.answers .retry f)) ∧
    (firstFailing tests = none → f.orders.length < 32 → ∀ (stack : Fin 4) (station : StationId),
      stack.val = r.stack → station.val = r.station →
      exec (.orderWrite tag addr ws) s = .next (s.posts
        { f with orders := f.orders ++ [⟨r.tag, stack, station, r.len, r.batch, r.batch, 0, 0, r.dep, none⟩] }
        tag .order addr (stampWords (dataOf ws) 2 1)))

/-- R58, R84 to R87: what a mispick, a lost panel and a placed panel do to an order in the list; a tag not in the list
skips the step. -/
def Obligations.OrderCountsFollowThePanels : Prop :=
  ∀ (f : Feed) (tag : Nat) (o : Order),
    (f.findOrder tag = some o →
      (o.mispicks < 2 → f.mispicked tag =
        ((f.modOrder tag fun o' => { o' with out := o'.out - 1, mispicks := o.mispicks + 1 }).count .mispicks).raise
          .mispick tag (o.mispicks + 1)) ∧
      (o.mispicks = 2 → o.fault = none → f.mispicked tag =
        ((((f.modOrder tag fun o' => { o' with out := o'.out - 1, mispicks := 3 }).count .mispicks).raise
          .mispick tag 3).modOrder tag fun o' => { o' with fault := some .mispicks }).raise .orderFaulted tag 1) ∧
      (2 ≤ o.mispicks → o.mispicks ≤ 3 → o.fault.isSome = true → f.mispicked tag =
        ((f.modOrder tag fun o' => { o' with out := o'.out - 1, mispicks := 3 }).count .mispicks).raise
          .mispick tag 3) ∧
      (o.fault = none → f.lostPanel tag =
        ((f.modOrder tag fun o' => { o' with out := o'.out - 1 }).modOrder tag
          fun o' => { o' with fault := some .lost }).raise .orderFaulted tag 2) ∧
      (o.fault.isSome = true → f.lostPanel tag = f.modOrder tag fun o' => { o' with out := o'.out - 1 }) ∧
      (1 < o.remaining → f.placedPanel tag =
        f.modOrder tag fun o' => { o' with out := o'.out - 1, remaining := o'.remaining - 1 }) ∧
      (o.remaining = 1 → f.placedPanel tag =
        (({ f with orders := removeOrder tag f.orders }).raise .orderDone tag 0).count .ordersDone)) ∧
    (f.findOrder tag = none → f.mispicked tag = f ∧ f.lostPanel tag = f ∧ f.placedPanel tag = f)

/-- R82, R83, R87: the removal of an entry keeps the order of the others and satisfies the dependencies that name it,
and the head of a station is the earliest-admitted entry for it. -/
def Obligations.RemovalAndStationHeads : Prop :=
  ∀ (f : Feed) (tag : Nat) (st : StationId),
    (removeOrder tag f.orders).map (·.tag) = (f.orders.map (·.tag)).filter (· != tag) ∧
    (∀ o ∈ removeOrder tag f.orders, o.dep ≠ tag ∨ tag = 0) ∧
    (∀ o ∈ f.orders, o.tag ≠ tag → o.dep ≠ tag → o ∈ removeOrder tag f.orders) ∧
    (∀ o ∈ f.orders, o.tag ≠ tag → o.dep = tag → { o with dep := 0 } ∈ removeOrder tag f.orders) ∧
    (∀ before o after, f.orders = before ++ o :: after → o.station = st → (∀ x ∈ before, x.station ≠ st) →
      f.headOf st = some o) ∧
    ((∀ x ∈ f.orders, x.station ≠ st) → f.headOf st = none)

/-- R88, R89: CANCEL_ORDER in RUN: NOT_FOUND, BUSY, or the order removed and its ORDER carries orphaned with their
events. That gantry 0's event is the first where both gantries carry such a panel is the model's choice (log 34). -/
def Obligations.CancelOrderInRun : Prop :=
  ∀ (s : State) (tag : MasterTag) (addr : Addr) (r : ControlRec),
    let f := s.feed
    let x := r.opA.toNat
    let listed := x ≠ 0 ∧ (f.findOrder x).isSome = true
    let concerns := ∃ g : Gantry, ∃ m, f.ctx[g].flight = some m ∧ m.kind ≠ .travel ∧ m.tag = x
    let orphan (g : Gantry) (f : Feed) : Feed :=
      match f.ctx[g].carry with
      | some k =>
        if k.kind = .order ∧ k.tag = x then
          (f.modCtx g fun c => { c with carry := some ⟨k.tag, k.len, .orphan⟩ }).raise .orphan g.val 1
        else f
      | none => f
    let orphaned := orphan 1 (orphan 0 f)
    OwnerControl s tag addr → f.part = .run →
    (¬listed → exec (.cancelOrder tag addr r) s = .next (s.controls f tag addr 2 r .notFound)) ∧
    (listed → concerns → exec (.cancelOrder tag addr r) s = .next (s.controls f tag addr 2 r .busy)) ∧
    (listed → ¬concerns → exec (.cancelOrder tag addr r) s = .next (s.controls
      { orphaned with orders := removeOrder x orphaned.orders } tag addr 2 r .done))

/-! ### Saw stations and the timers -/

/-- R112, R113: a report with the last toggle is a duplicate and has no other effect; any other is recorded, acts by
its saw state and the station's state, and is stamped TAKEN. -/
def Obligations.ReportWriteActsByTheSawState : Prop :=
  ∀ (s : State) (st : StationId) (tag : MasterTag) (addr : Addr) (ws : List PWord),
    let r := ReportRec.ofWords (dataOf ws)
    let x := s.feed.stations[st]
    let f := s.feed.modStation st fun x => { x with reportToggle := r.toggle, saw := r.saw }
    let guard := s.feed.cfg.guardTime[st]
    let result (f : Feed) (stamp : Nat) : Host.Outcome State Fault Refusal :=
      .next (s.posts f tag (.report st) addr (stampWords (dataOf ws) 3 stamp))
    OwnerRecord s tag addr ws (.report st) →
    (r.toggle = x.reportToggle → exec (.reportWrite tag addr ws) s = result s.feed 3) ∧
    (r.toggle ≠ x.reportToggle →
      (r.saw = .busy → x.state = .loaded → exec (.reportWrite tag addr ws) s =
        result (f.modStation st fun x => { x with state := .feeding }) 1) ∧
      (r.saw = .busy → x.state ≠ .loaded → exec (.reportWrite tag addr ws) s = result f 1) ∧
      (r.saw = .clear → x.state = .feeding → x.present = false → guard ≠ 0 →
        exec (.reportWrite tag addr ws) s =
          result (f.modStation st fun x => { x with state := .guard, guardStart := some s.feed.time }) 1) ∧
      (r.saw = .clear → x.state = .feeding → x.present = false → guard = 0 →
        exec (.reportWrite tag addr ws) s = result (f.modStation st fun x => { x with state := .empty }) 1) ∧
      (r.saw = .clear → (x.state ≠ .feeding ∨ x.present = true) →
        exec (.reportWrite tag addr ws) s = result f 1) ∧
      (r.saw = .fault → x.state = .fault → exec (.reportWrite tag addr ws) s = result f 1) ∧
      (r.saw = .fault → x.state ≠ .fault → exec (.reportWrite tag addr ws) s = result
        ((f.modStation st fun x => { x with
          state := .fault, reason := some .sawFault, guardStart := none, landingStart := none, early := false }).raise
          .stationFault st.val 3) 1))

/-- R100 to R102: a filtered rise or fall of PRESENT, due after the filter time, sets the level and acts by the
station's state. That the change may be taken later than it is due, and that the filter time is measured on the part's
time, are the model's choices (logs 9, 35). -/
def Obligations.PresentChangeActsByTheStationState : Prop :=
  ∀ (s : State) (st : StationId) (t0 : Time) (level : Bool),
    let x := s.feed.stations[st]
    let guard := s.feed.cfg.guardTime[st]
    let f := s.feed.modStation st fun x => { x with present := level, presentSince := none }
    let blocked (why : StReason) : Feed :=
      (f.modStation st fun x => { x with
        state := .blocked, reason := some why, guardStart := none, landingStart := none, early := false }).raise
        .stationBlocked st.val why.code
    let result (f : Feed) : Host.Outcome State Fault Refusal := .next (settle { s with feed := f })
    s.resetLow = false → s.feed.part = .run → s.feed.stationOn st = true → x.present ≠ level →
    s.presentRaw[st] = level → x.presentSince = some t0 → s.feed.cfg.filterTime ≤ (s.feed.time - t0).toNat →
    (level = true →
      ((x.state = .empty ∨ x.state = .guard) → exec (.presentRise st) s = result (blocked .unexpectedPanel)) ∧
      (x.state = .assigned → exec (.presentRise st) s = result (f.modStation st fun x => { x with early := true })) ∧
      (x.state = .landing → exec (.presentRise st) s =
        result (f.modStation st fun x => { x with state := .loaded, landingStart := none })) ∧
      ((x.state = .feeding ∨ x.state = .blocked ∨ x.state = .fault) → exec (.presentRise st) s = result f)) ∧
    (level = false →
      (x.state = .assigned → exec (.presentFall st) s = result (f.modStation st fun x => { x with early := false })) ∧
      (x.state = .loaded → exec (.presentFall st) s = result (blocked .removed)) ∧
      (x.state = .feeding → x.saw = .clear → guard ≠ 0 → exec (.presentFall st) s =
        result (f.modStation st fun x => { x with state := .guard, guardStart := some s.feed.time })) ∧
      (x.state = .feeding → x.saw = .clear → guard = 0 → exec (.presentFall st) s =
        result (f.modStation st fun x => { x with state := .empty })) ∧
      (x.state = .feeding → x.saw ≠ .clear → exec (.presentFall st) s = result f) ∧
      ((x.state = .blocked ∨ x.state = .fault) → exec (.presentFall st) s = result f))

/-- R49, R69, R100, R109, R110, R155: the expiry of the move timer halts the context, that of the landing timer faults
the station, that of the guard timer empties it, elapsed time being taken modulo 2^32; a raw change begins a filter
interval where it departs from the filtered level and ends it where it returns; a tick advances the time by one in
every part state and wraps. That an expiry may be taken later than it is due, and that a filter interval is measured on
the part's time, are the model's choices (logs 9, 35). -/
def Obligations.TimeFiltersAndTimers : Prop :=
  (∀ (s : State) (g : Gantry) (st : StationId) (m : Flight) (t0 : Time),
       let c := s.feed.ctx[g]
       let x := s.feed.stations[st]
       let result (f : Feed) : Host.Outcome State Fault Refusal := .next (settle { s with feed := f })
       s.resetLow = false → s.feed.part = .run →
       (s.feed.gantryOn g = true → c.state = .moving → c.flight = some m → c.timer = true →
         1000 * s.feed.cfg.moveTimeout ≤ (s.feed.time - m.start).toNat →
         exec (.moveTimeout g) s = result (s.feed.haltCtx g .moveTimeout none)) ∧
       (s.feed.stationOn st = true → x.state = .landing → x.landingStart = some t0 →
         s.feed.cfg.landingTimeout ≤ (s.feed.time - t0).toNat →
         exec (.landingTimeout st) s = result
           ((s.feed.modStation st fun x => { x with
             state := .fault, reason := some .landingTimeout, guardStart := none, landingStart := none,
             early := false }).raise .stationFault st.val 4)) ∧
       (s.feed.stationOn st = true → x.state = .guard → x.guardStart = some t0 →
         s.feed.cfg.guardTime[st] ≤ (s.feed.time - t0).toNat →
         exec (.guardExpiry st) s = result (s.feed.modStation st fun x => { x with state := .empty, guardStart := none }))) ∧
  (∀ (s : State) (g : Gantry) (st : StationId) (level : Bool),
       (s.resetLow = false → s.feed.part = .run → s.feed.gantryOn g = true → s.vacRaw[g] ≠ level →
         exec (.vacRawChange g level) s = .next (settle { s with
           vacRaw := s.vacRaw.set g level
           feed := { s.feed with vac := s.feed.vac.set g (Machine.Filter.mk s.feed.vac[g].level
             (if s.feed.vac[g].level = level then none else some s.feed.time)) } })) ∧
       (s.resetLow = false → s.feed.part = .run → s.feed.stationOn st = true → s.presentRaw[st] ≠ level →
         exec (.presentRawChange st level) s = .next (settle { s with
           presentRaw := s.presentRaw.set st level
           feed := s.feed.modStation st fun x => { x with
             presentSince := if x.present = level then none else some s.feed.time } })) ∧
       exec .partTimeTick s = .next (settle { s with feed := { s.feed with time := s.feed.time + 1 } }) ∧
       (s.feed.time + 1).toNat = (s.feed.time.toNat + 1) % 2 ^ 32)

/-- R117: UNBLOCK_STATION in RUN: the first row of the table that applies gives the result; DONE empties the station.
-/
def Obligations.UnblockStationInRun : Prop :=
  ∀ (s : State) (tag : MasterTag) (addr : Addr) (r : ControlRec),
    let f := s.feed
    let a := r.opA.toNat
    OwnerControl s tag addr → f.part = .run → f.cfg.stationCount ≤ 6 →
    (f.cfg.stationCount ≤ a →
      exec (.unblockStation tag addr r) s = .next (s.controls f tag addr 3 r .badOperand)) ∧
    ∀ st : StationId, st.val = a → a < f.cfg.stationCount →
      let x := f.stations[st]
      let placing := ∃ g : Gantry, ∃ m, f.ctx[g].flight = some m ∧ m.kind = .place ∧ m.station = some st
      (x.state ≠ .blocked → x.state ≠ .fault →
        exec (.unblockStation tag addr r) s = .next (s.controls f tag addr 3 r .badOperand)) ∧
      ((x.state = .blocked ∨ x.state = .fault) →
        (x.present = true →
          exec (.unblockStation tag addr r) s = .next (s.controls f tag addr 3 r .stillPresent)) ∧
        (x.present = false → placing →
          exec (.unblockStation tag addr r) s = .next (s.controls f tag addr 3 r .busy)) ∧
        (x.present = false → ¬placing → x.saw = .fault →
          exec (.unblockStation tag addr r) s = .next (s.controls f tag addr 3 r .sawFault)) ∧
        (x.present = false → ¬placing → x.saw ≠ .fault →
          exec (.unblockStation tag addr r) s = .next (s.controls
            (f.modStation st fun x => { x with state := .empty, reason := none, early := false }) tag addr 3 r .done)))

/-! ### Halts and recovery -/

/-- R121, R122: what a halt and a further fault change: the halt record, the state, the reserved cells, the wait
record, the timer and one event; a further fault only the count, up to 255, and its event. -/
def Obligations.HaltAndFurtherFault : Prop :=
  ∀ (f : Feed) (g : Gantry) (why : HaltReason) (sub : Option BadMove),
    f.haltCtx g why sub =
      ((f.modCtx g fun c => { c with
          state := .halted, halt := some ⟨why, sub, f.time, 0⟩, wait := ⟨none, 0, false⟩, timer := false }).setRail
        (unreserve f.rail g)).raise .halted g.val why.code ∧
    (f.haltCtx g why sub).ctx[g] = { f.ctx[g] with
      state := .halted, halt := some ⟨why, sub, f.time, 0⟩, wait := ⟨none, 0, false⟩, timer := false } ∧
    ∀ h, f.ctx[g].halt = some h → f.furtherFault g why =
      (f.modCtx g fun c => { c with halt := some { h with further := min (h.further + 1) 255 } }).raise
        .furtherFault g.val why.code

/-- R124 to R128: CLEAR_HALT in RUN: the first row of the table that applies gives the result; otherwise the halt is
settled (the move closed, the position taken, the carry made to agree with the grip) and the gantry reseated. A fall of
VAC that is due under a carry, with no PICK, PLACE or REJECT in flight, is read by the grip step, which clears the carry,
and has no effect after it; that row 1 of R128 speaks of a fall that is due is the model's reading (log 36). -/
def Obligations.ClearHaltInRun : Prop :=
  ∀ (s : State) (tag : MasterTag) (addr : Addr) (r : ControlRec),
    let f := s.feed
    let a := r.opA.toNat
    let p := r.opB.toNat
    let result (f : Feed) (res : Result) : Host.Outcome State Fault Refusal := .next (s.controls f tag addr 1 r res)
    OwnerControl s tag addr → f.part = .run → f.cfg.gantryCount ≤ 2 →
    (f.cfg.gantryCount ≤ a → exec (.clearHalt tag addr r) s = result f .badOperand) ∧
    ∀ g : Gantry, g.val = a → a < f.cfg.gantryCount →
      let c := f.ctx[g]
      (c.state ≠ .halted → exec (.clearHalt tag addr r) s = result f .notHalted) ∧
      (c.state = .halted → r.bGiven = false → (c.pos = none ∨ c.flight.isSome = true) →
        exec (.clearHalt tag addr r) s = result f .needPosition) ∧
      (c.state = .halted → r.bGiven = true → f.cfg.railLen ≤ p →
        exec (.clearHalt tag addr r) s = result f .badOperand) ∧
      let fallDue := c.carry.isSome = true ∧ (∀ m, c.flight = some m → m.kind = .travel) ∧ f.vac[g].level = true ∧
        ∃ t0, f.vac[g].since = some t0 ∧ f.cfg.filterTime ≤ (f.time - t0).toNat
      ∀ (f0 f1 f2 f3 : Feed) (q : Nat), c.state = .halted →
        ((fallDue ∧ f0 = { f with vac := f.vac.set g ⟨false, none⟩ }) ∨ (¬fallDue ∧ f0 = f)) →
        ((r.bGiven = true ∧ p < f.cfg.railLen ∧ q = p) ∨
          (r.bGiven = false ∧ c.pos = some q ∧ c.flight = none)) →
        ((c.flight = none ∧ f1 = f0) ∨ ∃ m, c.flight = some m ∧ f1 = f0.closeFlight g m) →
        f2 = f1.modCtx g (fun c => { c with pos := some q }) →
        (let carry := f2.ctx[g].carry
         let vac := f0.vac[g].level
         let emptied := f2.modCtx g fun c => { c with carry := none }
         (carry = none ∧ vac = true ∧
           f3 = f2.modCtx g fun c => { c with carry := some ⟨0, f.cfg.cmax, .unknown⟩ }) ∨
         (∃ x, orderTag carry = some x ∧ vac = false ∧ f3 = emptied.lostPanel x) ∨
         (carry.isSome = true ∧ orderTag carry = none ∧ vac = false ∧ f3 = emptied) ∨
         (carry.isSome = vac ∧ f3 = f2)) →
        let span := f.cfg.occupancy q f3.ctx[g].carry
        (fallDue → f3.ctx[g].carry = none ∧ f3.vac[g].level = false) ∧
        (reseat f3.rail g span = .conflict → exec (.clearHalt tag addr r) s = result f3 .conflict) ∧
        (reseat f3.rail g span = .crossed → exec (.clearHalt tag addr r) s = result f3 .crossed) ∧
        ∀ t h, reseat f3.rail g span = .granted t → c.halt = some h →
          exec (.clearHalt tag addr r) s = result
            (((f3.setRail t).modCtx g fun c => { c with state := .idle, halt := none, memRun := 0 }).raise
              .haltCleared g.val h.reason.code) .done

/-- R91, R131 to R133: RESET_FEED in RUN: the list emptied and ORDER carries orphaned, then the enabled stations in
ASSIGNED or LANDING faulted in ascending index, then each enabled context halted, its move in flight kept. -/
def Obligations.ResetFeedInRun : Prop :=
  ∀ (s : State) (tag : MasterTag) (addr : Addr) (r : ControlRec),
    let orphan (g : Gantry) (f : Feed) : Feed :=
      match f.ctx[g].carry with
      | some k =>
        if k.kind = .order then
          (f.modCtx g fun c => { c with carry := some ⟨k.tag, k.len, .orphan⟩ }).raise .orphan g.val 2
        else f
      | none => f
    let fault (st : StationId) (f : Feed) : Feed :=
      if f.stationOn st = true ∧ (f.stations[st].state = .assigned ∨ f.stations[st].state = .landing) then
        (f.modStation st fun x => { x with
          state := .fault, reason := some .feedReset, guardStart := none, landingStart := none, early := false }).raise
          .stationFault st.val 6
      else f
    let halt (g : Gantry) (f : Feed) : Feed := if f.gantryOn g = true then f.haltCtx g .feedReset none else f
    let f1 := orphan 1 (orphan 0 { s.feed with orders := [] })
    let f2 := fault 5 (fault 4 (fault 3 (fault 2 (fault 1 (fault 0 f1)))))
    OwnerControl s tag addr → s.feed.part = .run →
    exec (.resetFeed tag addr r) s = .next (s.controls (halt 1 (halt 0 f2)) tag addr 5 r .done) ∧
    ∀ g : Gantry, (halt 1 (halt 0 f2)).ctx[g].flight = s.feed.ctx[g].flight

/-- R114, R123, R168, R173: the levels of HOLD, ALERT and PERMIT, in every state of the part and its pins. -/
def Obligations.OutputLines : Prop :=
  ∀ (s : State) (st : StationId),
    (s.holdOut = true ↔ s.resetLow = true ∨ s.feed.part ≠ .run ∨
      ∃ g : Gantry, g.val < s.feed.cfg.gantryCount ∧ s.feed.ctx[g].state = .halted) ∧
    (s.alertOut = true ↔ s.resetLow = false ∧
      (0 < (s.feed.prod + 2 ^ s.feed.cfg.ringLog - s.feed.cons) % 2 ^ s.feed.cfg.ringLog + s.feed.events.length ∨
        s.feed.flags ≠ ⟨false, false, false, false, false, false⟩)) ∧
    (s.permitOut st = true ↔ s.resetLow = false ∧ s.feed.part = .run ∧ st.val < s.feed.cfg.stationCount ∧
      s.feed.stations[st].state = .loaded)

/-! ### The cell bus path -/

/-- R28, R146: a drive's read of one record of its own MOVE window is held to be judged, another tag's is forwarded
raw, and its own that is not on a slot is refused ALIGN; a line computer write of a record into a MOVE window, or of
any size into the settings image, is posted unchanged. -/
def Obligations.MoveReadsAreHeldAndOwnerWritesPosted : Prop :=
  (∀ (s : State) (g : Gantry) (tag : MasterTag) (addr : Addr),
       PortFree s → Inside s addr 4 (some (.move g)) →
       (tag = s.feed.cfg.driveTag[g] → addr.toNat % 16 = 0 →
         exec (.moveRead tag addr) s = .next (s.holds (readTxn tag addr 4) (some g))) ∧
       (tag = s.feed.cfg.driveTag[g] → addr.toNat % 16 ≠ 0 →
         exec (.moveRead tag addr) s = .next (s.answers .refuse (refusedFeed tag .align (.move g) s.feed))) ∧
       (tag ≠ s.feed.cfg.driveTag[g] →
         exec (.moveRead tag addr) s = .next (s.holds (readTxn tag addr 4) none))) ∧
  (∀ (s : State) (addr : Addr) (ws : List PWord) (g : Gantry),
       (OwnerRecord s s.lcTag addr ws (.move g) → exec (.ownerWritePosted s.lcTag addr ws) s =
         .next (s.posts s.feed s.lcTag (.move g) addr (dataOf ws))) ∧
       (PortFree s → Inside s addr ws.length (some .settings) → (∀ w ∈ ws, parityOk w = true) →
         exec (.ownerWritePosted s.lcTag addr ws) s =
           .next (s.posts s.feed s.lcTag .settings addr (dataOf ws))) ∧
       ((∀ w ∈ ws, parityOk w = true) → outWords (dataOf ws) = ws))

/-- R138, R140, R142, R143: the tests of the upstream port in their order, and what each refusal changes. Which area a
misaligned word counts for is the model's choice (log 18). -/
def Obligations.PortRefusesByItsFirstFailingTest : Prop :=
  ∀ (s : State) (t : Txn),
    let addr := t.addr.toNat
    let len := t.op.len
    let refused := s.feed.count .refused
    let broken := addr % 4 ≠ 0 ∨ 2 ^ 24 < addr + 4 * len ∨
      ∃ i < len, s.areaAt (addr + 4 * i) ≠ s.areaAt addr
    PortFree s → 1 ≤ len → len ≤ 16 →
    (t.addrParityOk = false → exec (.forwardRaw t) s =
      .next (s.answers .refuse ((s.feed.count .addrParity).count .refused))) ∧
    (t.addrParityOk = true → broken →
      (∀ a, ∀ i < len, s.areaAt (addr + 4 * i) = some a → (∀ j < i, s.areaAt (addr + 4 * j) = none) →
        exec (.forwardRaw t) s = .next (s.answers .refuse (refusedFeed t.tag .align a s.feed))) ∧
      ((∀ i < len, s.areaAt (addr + 4 * i) = none) →
        exec (.forwardRaw t) s = .next (s.answers .refuse refused))) ∧
    (∀ a ws, t.addrParityOk = true → Inside s t.addr len (some a) → t.op = .write ws →
      (s.owner a = none →
        exec (.forwardRaw t) s = .next (s.answers .refuse (refusedFeed t.tag .partOwned a s.feed))) ∧
      (∀ x, s.owner a = some x → t.tag ≠ x →
        exec (.forwardRaw t) s = .next (s.answers .refuse (refusedFeed t.tag .tag a s.feed))) ∧
      (s.owner a = some t.tag → a ≠ .settings → ¬(len = 4 ∧ addr % 16 = 0) →
        exec (.forwardRaw t) s = .next (s.answers .refuse (refusedFeed t.tag .align a s.feed))) ∧
      (s.owner a = some t.tag → (a = .settings ∨ (len = 4 ∧ addr % 16 = 0)) → (∃ w ∈ ws, parityOk w = false) →
        exec (.forwardRaw t) s = .next (s.answers .refuse (refusedFeed t.tag .parity a s.feed)))) ∧
    (∀ g n, t.addrParityOk = true → Inside s t.addr len (some (.move g)) → t.op = .read n →
      t.tag = s.feed.cfg.driveTag[g] → ¬(len = 4 ∧ addr % 16 = 0) →
        exec (.forwardRaw t) s = .next (s.answers .refuse (refusedFeed t.tag .align (.move g) s.feed)))

/-- R147, R149, R154: unwatched traffic and raw reads of watched areas are held against the latency bound; behind an
open posted write a transaction waits on the bus, not yet arrived; under RESET_N it is answered RETRY. -/
def Obligations.ForwardRawIsHeld : Prop :=
  ∀ (s : State) (t : Txn),
    (PortFree s → t.addrParityOk = true → Inside s t.addr t.op.len none →
      exec (.forwardRaw t) s = .next (s.holds t none)) ∧
    (∀ a n, PortFree s → t.addrParityOk = true → Inside s t.addr t.op.len (some a) → t.op = .read n →
      a ≠ .status → (∀ g, a = .move g → t.tag ≠ s.feed.cfg.driveTag[g]) →
      exec (.forwardRaw t) s = .next (s.holds t none)) ∧
    (s.resetLow = false → s.bus.onBus = none → s.bus.held = none → s.bus.posted.isSome = true →
      exec (.forwardRaw t) s = .next (settle { s with bus := { s.bus with onBus := some t, answer := none } })) ∧
    (s.resetLow = true → exec (.forwardRaw t) s = .next (s.answers .retry s.feed)) ∧
    (s.feed.part = .run → s.boundNow = s.feed.cfg.bound) ∧ (s.feed.part ≠ .run → s.boundNow = 64)

/-- R145, R147, R148, R150: a held transaction forwarded raw ends with memory's answer or by its bound, whichever is
taken first; an answer that comes after the bound is discarded, for a READ and for a WRITE, with no count and no event.
PASSED_PARITY counts a READ at its answer; a WRITE is counted at its grant (Obligations.PortGrantGoesInTurn), and not
again here. That the grant is the moment a WRITE is forwarded, and that the elapsed time is an operand, are the model's
choices (logs 16, 8). -/
def Obligations.HeldTransactionEndsByAnswerOrBound : Prop :=
  ∀ (s : State) (o : PortOp) (h : Held) (us : Nat) (a : MemAnswer),
    let ended (f : Feed) (m : Memory) (k : AnswerKind) (ws : List PWord) : Host.Outcome State Fault Refusal :=
      .next (settle { s with
        feed := f, mem := m, bus := { s.bus with held := none, port := none, answer := some ⟨k, ws⟩ } })
    let passed (ws : List PWord) : Feed :=
      if ∀ w ∈ ws, parityOk w = true then s.feed else s.feed.count .passedParity
    (∀ ups n ws, s.bus.port = some o → o.kind = .raw → o.discard = false → o.op = .read n → a = .done ups →
      ws = upsetWords ups (s.mem.readWords o.addr n) →
      exec (.heldMemoryAnswer a) s = ended (passed ws) s.mem .done ws) ∧
    (∀ ups ws, s.bus.port = some o → o.kind = .raw → o.discard = false → o.op = .write ws → a = .done ups →
      exec (.heldMemoryAnswer a) s = ended s.feed (s.mem.writeWords o.addr ws) .done []) ∧
    (∀ n, s.bus.port = some o → o.kind = .raw → o.discard = false → o.op = .read n → a = .fault →
      exec (.heldMemoryAnswer a) s = ended (s.feed.count .refused) s.mem .refuse []) ∧
    (∀ ws, s.bus.port = some o → o.kind = .raw → o.discard = false → o.op = .write ws → a = .fault →
      ∃ m n, exec (.heldMemoryAnswer a) s = .next (settle { s with
          feed := s.feed.count .refused, mem := m, openCount := n
          bus := { s.bus with held := none, port := none, answer := some ⟨.refuse, []⟩ } }) ∧
        ∀ x, (x < o.addr ∨ o.addr + 4 * ws.length ≤ x) → m.readByte x = s.mem.readByte x) ∧
    (s.bus.held = some h → h.bound ≤ us →
      exec (.latencyExpiry us) s = .next (settle { s with
        feed := s.feed.count .latencyRetry
        bus := { s.bus with
          held := none
          answer := some ⟨.retry, []⟩
          port := s.bus.port.map fun o => if o.kind.isHeld then { o with discard := true } else o } })) ∧
    (∀ n, s.bus.port = some o → o.op = .read n → o.discard = true →
      (o.kind = .raw → exec (.heldMemoryAnswer a) s = .next (settle { s with bus := { s.bus with port := none } })) ∧
      (o.kind.isJudged = true → exec (.judgeMove a) s = .next (settle { s with bus := { s.bus with port := none } }))) ∧
    (∀ ws, s.bus.port = some o → o.op = .write ws → o.discard = true → o.kind = .raw →
      (∀ ups, a = .done ups → exec (.heldMemoryAnswer a) s =
        .next (settle { s with mem := s.mem.writeWords o.addr ws, bus := { s.bus with port := none } })) ∧
      (a = .fault → ∃ m n, exec (.heldMemoryAnswer a) s =
          .next (settle { s with mem := m, openCount := n, bus := { s.bus with port := none } }) ∧
        ∀ x, (x < o.addr ∨ o.addr + 4 * ws.length ≤ x) → m.readByte x = s.mem.readByte x))

/-- R149, R150, R151: an open posted write is closed by memory's answer, or as a FAULT by its bound. With no transaction
waiting on the bus nothing else arrives; a transaction waiting there arrives when the write is closed, by DONE, by FAULT
or by the bound, and is taken as if it were presented then. An answer that comes after the bound frees the port and
counts nothing. The elapsed time as an operand is the model's choice (log 8), and so is that a write whose bound expires
before its grant never reaches memory (log 15). -/
def Obligations.PostedWriteIsClosedByAnswerOrBound : Prop :=
  (∀ (s : State) (o : PortOp) (p : Posted) (us : Nat) (ups : List Upset),
       let faulted := (s.feed.count .memFault).raise .memoryFault p.tag.toNat p.area.code
       s.bus.posted = some p → s.bus.onBus = none →
       (s.bus.port = some o → o.kind = .posted → o.discard = false → o.op = .write p.words → o.addr = p.addr →
         exec (.postedWriteAnswer (.done ups)) s = .next (settle { s with
           mem := s.mem.writeWords p.addr p.words
           bus := { s.bus with port := none, posted := none } }) ∧
         ∃ m n, exec (.postedWriteAnswer .fault) s = .next (settle { s with
             feed := faulted, mem := m, openCount := n, bus := { s.bus with port := none, posted := none } }) ∧
           ∀ x, (x < p.addr ∨ p.addr + 4 * p.words.length ≤ x) → m.readByte x = s.mem.readByte x) ∧
       (p.bound ≤ us → exec (.postedWriteTimeout us) s = .next (settle { s with
         feed := faulted
         bus := { s.bus with
           posted := none
           port := s.bus.port.map fun o => if o.kind = .posted then { o with discard := true } else o } }))) ∧
  (∀ (s : State) (o : PortOp) (p : Posted) (t : Txn) (ups : List Upset) (us : Nat),
       let faulted := (s.feed.count .memFault).raise .memoryFault p.tag.toNat p.area.code
       s.resetLow = false → s.bus.posted = some p → s.bus.onBus = some t → s.bus.held = none → s.bus.answer = none →
       (s.bus.port = some o → o.kind = .posted → o.discard = false → o.op = .write p.words → o.addr = p.addr →
         (∃ u, exec (.postedWriteAnswer (.done ups)) s = .next u ∧
           exec (.forwardRaw t) { s with
             mem := s.mem.writeWords p.addr p.words
             bus := { s.bus with port := none, posted := none, onBus := none } } = .next u) ∧
         ∃ u m n, exec (.postedWriteAnswer .fault) s = .next u ∧
           exec (.forwardRaw t) { s with
             feed := faulted, mem := m, openCount := n
             bus := { s.bus with port := none, posted := none, onBus := none } } = .next u ∧
           ∀ x, (x < p.addr ∨ p.addr + 4 * p.words.length ≤ x) → m.readByte x = s.mem.readByte x) ∧
       (p.bound ≤ us → ∃ u, exec (.postedWriteTimeout us) s = .next u ∧
         exec (.forwardRaw t) { s with
           feed := faulted
           bus := { s.bus with
             posted := none, onBus := none
             port := s.bus.port.map fun o => if o.kind = .posted then { o with discard := true } else o } } =
           .next u)) ∧
  (∀ (s : State) (o : PortOp) (ws : List PWord) (ups : List Upset),
       s.bus.port = some o → o.kind = .posted → o.discard = true → o.op = .write ws →
       exec (.postedWriteAnswer (.done ups)) s =
         .next (settle { s with mem := s.mem.writeWords o.addr ws, bus := { s.bus with port := none } }) ∧
       ∃ m n, exec (.postedWriteAnswer .fault) s =
           .next (settle { s with mem := m, openCount := n, bus := { s.bus with port := none } }) ∧
         ∀ x, (x < o.addr ∨ o.addr + 4 * ws.length ≤ x) → m.readByte x = s.mem.readByte x)

/-- R145, R151, R152, R160: the free port goes to the claimant whose turn it is, the forwarder's posted write before its
held transaction, the settings reader before the record writer, notices before events; a WRITE forwarded raw with bad
parity is counted as it is forwarded, words and parity bits as received. Where both claimants wait the turn goes to the
one that did not have the last grant, where one waits to that one, and where none waits to none. That the turn is kept
in the state between commands, and that the grant is the moment of the count, are the model's choices (logs 14, 16). -/
def Obligations.PortGrantGoesInTurn : Prop :=
  ∀ (s : State) (o : PortOp) (c : Claimant),
    let op (c : Claimant) : Option PortOp :=
      match c with
      | .forwarder => match s.bus.posted, s.bus.held with
        | some p, _ => some ⟨.posted, p.addr, .write p.words, false⟩
        | none, some h => some ⟨match h.judged with | some g => .judged g | none => .raw, h.txn.addr.toNat, h.txn.op,
            false⟩
        | none, none => none
      | .own => match s.feed.part, s.feed.notices, s.feed.events with
        | .start, _, _ =>
          if s.bus.posted.any (·.reload) then none
          else some ⟨.settings, s.base.toNat * 2 ^ 20 + 4 * s.bus.image.length, .read 16, false⟩
        | .run, n :: _, _ => some ⟨.notice n.station, s.feed.cfg.noticeBase[n.station], .write (outWords n.words), false⟩
        | .run, [], e :: _ => some ⟨.event, s.feed.cfg.ringBase + 16 * s.feed.prod, .write (outWords e.words), false⟩
        | .run, [], [] => none
        | .locked, _, _ => none
    let swap (c : Claimant) : Claimant := match c with | .forwarder => .own | .own => .forwarder
    let granted (f : Feed) : Host.Outcome State Fault Refusal :=
      .next (settle { s with feed := f, bus := { s.bus with port := some o, lastGrant := c, turn := none } })
    s.resetLow = false → s.bus.port = none →
    (s.bus.turn = some c → op c = some o →
      (∀ ws, o.kind = .raw → o.op = .write ws → (∃ w ∈ ws, parityOk w = false) →
        exec .portGrant s = granted (s.feed.count .passedParity)) ∧
      (∀ ws, o.kind = .raw → o.op = .write ws → (∀ w ∈ ws, parityOk w = true) →
        exec .portGrant s = granted s.feed) ∧
      (∀ n, o.op = .read n → exec .portGrant s = granted s.feed) ∧
      (o.kind ≠ .raw → exec .portGrant s = granted s.feed)) ∧
    (s.bus.turn = none → (op .forwarder).isSome = true → (op .own).isSome = true →
      (settle s).bus.turn = some (swap s.bus.lastGrant)) ∧
    ((op c).isSome = true → op (swap c) = none → (settle s).bus.turn = some c) ∧
    (op .forwarder = none → op .own = none → (settle s).bus.turn = none)

/-- R116, R150, R151, R152, R160: a notice write and an event write end with memory's answer, or as a FAULT by the
latency bound. P advances only at DONE; a faulted record is not written again; an answer that comes after the bound
frees the port, and counts, queues and advances nothing. The elapsed time as an operand is the model's choice (log 8),
and so is that a faulted notice leaves its slot in memory and a faulted event free words (log 6). -/
def Obligations.RecordWritesEndByAnswerOrBound : Prop :=
  ∀ (s : State) (o : PortOp) (us : Nat) (ups : List Upset) (ws : List PWord),
    let f := s.feed
    let next (f : Feed) (m : Memory) : Host.Outcome State Fault Refusal :=
      .next (settle { s with feed := f, mem := m, bus := { s.bus with port := none } })
    let expired (f : Feed) : Host.Outcome State Fault Refusal :=
      .next (settle { s with feed := f, bus := { s.bus with port := some { o with discard := true } } })
    let freed (f : Feed) : Prop := ∃ m n, exec (.eventWriteAnswer .fault) s = .next (settle { s with
        feed := f, mem := m, openCount := n, bus := { s.bus with port := none } }) ∧
      ∀ x, (x < o.addr ∨ o.addr + 4 * ws.length ≤ x) → m.readByte x = s.mem.readByte x
    s.bus.port = some o → o.op = .write ws →
    (∀ st, o.kind = .notice st → o.discard = false →
      let ended := { f with notices := f.notices.tail }
      let faulted := (ended.count .memFault).raise .memoryFault 15 8
      exec (.noticeWriteAnswer (.done ups)) s = next ended (s.mem.writeWords o.addr ws) ∧
      exec (.noticeWriteAnswer .fault) s = next faulted s.mem ∧
      (s.boundNow ≤ us → exec (.recordWriteTimeout us) s = expired faulted)) ∧
    (∀ e rest, o.kind = .event → o.discard = false → f.events = e :: rest →
      let ended := { f with events := rest }
      let faulted := if e.code = .memoryFault then ended.count .memFault
        else (ended.count .memFault).raise .memoryFault 15 9
      exec (.eventWriteAnswer (.done ups)) s =
        next { ended with prod := (f.prod + 1) % 2 ^ f.cfg.ringLog } (s.mem.writeWords o.addr ws) ∧
      freed faulted ∧
      (s.boundNow ≤ us → exec (.recordWriteTimeout us) s = expired faulted)) ∧
    (∀ st, o.kind = .notice st → o.discard = true →
      exec (.noticeWriteAnswer (.done ups)) s = next f (s.mem.writeWords o.addr ws) ∧
      exec (.noticeWriteAnswer .fault) s = next f s.mem) ∧
    (o.kind = .event → o.discard = true →
      exec (.eventWriteAnswer (.done ups)) s = next f (s.mem.writeWords o.addr ws) ∧ freed f)

/-! ### Control, status and events -/

/-- R156, R157: every control command is RETRY in START; in LOCKED every command but RELOAD_SETTINGS is stamped
LOCKED; in RUN an unknown command is stamped UNKNOWN. None of these changes anything else. -/
def Obligations.ControlCommandsByPartState : Prop :=
  ∀ (s : State) (tag : MasterTag) (addr : Addr) (r : ControlRec) (code : BitVec 8),
    OwnerControl s tag addr →
    (s.feed.part = .start →
      exec (.clearHalt tag addr r) s = .next (s.answers .retry s.feed) ∧
      exec (.cancelOrder tag addr r) s = .next (s.answers .retry s.feed) ∧
      exec (.unblockStation tag addr r) s = .next (s.answers .retry s.feed) ∧
      exec (.ackEvents tag addr r) s = .next (s.answers .retry s.feed) ∧
      exec (.resetFeed tag addr r) s = .next (s.answers .retry s.feed) ∧
      exec (.reloadSettings tag addr r) s = .next (s.answers .retry s.feed) ∧
      exec (.unknownCommand tag addr code r) s = .next (s.answers .retry s.feed)) ∧
    (s.feed.part = .locked →
      exec (.clearHalt tag addr r) s = .next (s.controls s.feed tag addr 1 r .locked) ∧
      exec (.cancelOrder tag addr r) s = .next (s.controls s.feed tag addr 2 r .locked) ∧
      exec (.unblockStation tag addr r) s = .next (s.controls s.feed tag addr 3 r .locked) ∧
      exec (.ackEvents tag addr r) s = .next (s.controls s.feed tag addr 4 r .locked) ∧
      exec (.resetFeed tag addr r) s = .next (s.controls s.feed tag addr 5 r .locked) ∧
      (code = 0 ∨ 6 < code.toNat →
        exec (.unknownCommand tag addr code r) s = .next (s.controls s.feed tag addr code r .locked))) ∧
    (s.feed.part = .run → (code = 0 ∨ 6 < code.toNat) →
      exec (.unknownCommand tag addr code r) s = .next (s.controls s.feed tag addr code r .unknown))

/-- R161: ACK_EVENTS in RUN sets Q to the index given unless it is no slot of the ring or lies beyond P, counting
round the ring from Q. -/
def Obligations.AckEventsInRun : Prop :=
  ∀ (s : State) (tag : MasterTag) (addr : Addr) (r : ControlRec),
    let i := r.opA.toNat
    let c := 2 ^ s.feed.cfg.ringLog
    let ahead := (i + c - s.feed.cons) % c
    let written := (s.feed.prod + c - s.feed.cons) % c
    OwnerControl s tag addr → s.feed.part = .run →
    ((c ≤ i ∨ written < ahead) →
      exec (.ackEvents tag addr r) s = .next (s.controls s.feed tag addr 4 r .badIndex)) ∧
    (i < c → ahead ≤ written →
      exec (.ackEvents tag addr r) s = .next (s.controls { s.feed with cons := i } tag addr 4 r .done) ∧
      (s.feed.prod < c → s.feed.cons < c → (s.feed.prod + c - i) % c = written - ahead))

/-- R178, R179: RELOAD_SETTINGS is BUSY in RUN while an order, a move, a carry or a placement is on its way;
otherwise, and always in LOCKED, the part enters START with the ring and the claim table emptied, a record write in
progress abandoned and the record posted. The model's choices are that the filtered levels are cleared (log 19), that
the notice places are emptied too (notices := [], log 30), and that the record keeps the bound in force at its arrival
(log 37). -/
def Obligations.ReloadSettingsInRunAndLocked : Prop :=
  ∀ (s : State) (tag : MasterTag) (addr : Addr) (r : ControlRec) (cause : StartCause),
    let f := s.feed
    let busy := f.orders ≠ [] ∨
      (∃ g : Gantry, f.gantryOn g = true ∧ (f.ctx[g].flight.isSome = true ∨ f.ctx[g].carry.isSome = true)) ∨
      ∃ st : StationId, f.stationOn st = true ∧ (f.stations[st].state = .assigned ∨
        f.stations[st].state = .landing ∨ f.stations[st].state = .loaded ∨ f.stations[st].state = .feeding)
    OwnerControl s tag addr →
    (f.part = .run → busy →
      exec (.reloadSettings tag addr r) s = .next (s.controls f tag addr 6 r .busy)) ∧
    ((f.part = .run ∧ ¬busy ∧ cause = .reload) ∨ (f.part = .locked ∧ cause = .locked) →
      exec (.reloadSettings tag addr r) s = .next (settle { s with
        feed := { f with
          part := .start, cause := cause, rail := .replicate 64 .free, vac := .replicate 2 ⟨false, none⟩
          stations := .ofFn fun st : StationId =>
            { f.stations[st] with present := false, presentSince := none, guardStart := none }
          notices := [], events := [], prod := 0, cons := 0 }
        bus := { s.bus with
          answer := some ⟨.done, []⟩
          posted := some ⟨tag, .control, addr.toNat,
            outWords (stampWords (controlWords 6 r) 8 Result.done.code), s.boundNow, true⟩
          port := s.bus.port.map fun o => if o.kind.isRecord then { o with discard := true } else o
          image := [] } }))

/-- R164, R165, R167, sections 11.3 and 11.4: a status read is answered from one snapshot with good parity; a line
computer read whose burst covers the flags word clears the six flags, and nothing else changes. The second part gives
every field of the record at the snapshot: the part's own, the rail map, the counters and flags, and each gantry and
station in RUN, disabled, and at the power-on values that START and LOCKED show. The third part gives the codes that
its fields hold. What a disabled unit's other fields show is log 20, and the second part says nothing of it. -/
def Obligations.StatusReadAnswersOneSnapshotOfTheState : Prop :=
  (∀ (s : State) (tag : MasterTag) (addr : Addr) (k n : Nat),
       let words := (List.range n).map fun i => PWord.good (wordAt (snapshot s) (k + i))
       let result (f : Feed) : Host.Outcome State Fault Refusal :=
         .next (settle { s with feed := f, bus := { s.bus with answer := some ⟨.done, words⟩ } })
       PortFree s → 1 ≤ n → n ≤ 16 → k + n ≤ 32 → addr.toNat = s.anchor + 256 + 4 * k →
       (snapshot s).length = 32 ∧
       (tag = s.lcTag → k ≤ 24 → 24 < k + n → exec (.statusRead tag addr n) s =
         result { s.feed with flags := ⟨false, false, false, false, false, false⟩ }) ∧
       ((tag ≠ s.lcTag ∨ 24 < k ∨ k + n ≤ 24) → exec (.statusRead tag addr n) s = result s.feed)) ∧
  (∀ (s : State) (g : Gantry) (st : StationId),
       let f := s.feed
       let n := f.counts
       let c := f.ctx[g]
       let x := f.stations[st]
       let w (k lo n : Nat) := field (wordAt (snapshot s) k) lo n
       let k := 2 + 4 * g.val
       let j := 10 + st.val
       (w 0 0 2 = f.part.code ∧ w 0 4 4 = f.loadFault.code ∧ w 0 8 3 = s.lcTag.toNat ∧
         w 0 12 1 = bitNat s.holdOut ∧ w 0 13 1 = bitNat s.alertOut ∧
         (f.orders.length ≤ 32 → w 0 16 6 = f.orders.length) ∧ wordAt (snapshot s) 1 = f.time ∧
         (∀ i < 64, w (25 + i / 10) (3 * (i % 10)) 3 = (cellAt f.rail i).code)) ∧
       ((f.prod < 256 → w 19 0 8 = f.prod) ∧ (f.cons < 256 → w 19 16 8 = f.cons) ∧
         (n.addrParity ≤ 65535 → w 20 0 16 = n.addrParity) ∧ (n.refused ≤ 65535 → w 20 16 16 = n.refused) ∧
         (n.passedParity ≤ 65535 → w 21 0 16 = n.passedParity) ∧
         (n.latencyRetry ≤ 65535 → w 21 16 16 = n.latencyRetry) ∧
         (n.memFault ≤ 65535 → w 22 0 16 = n.memFault) ∧ (n.eventsLost ≤ 65535 → w 22 16 16 = n.eventsLost) ∧
         (n.mispicks ≤ 65535 → w 23 0 16 = n.mispicks) ∧ (n.rejects ≤ 65535 → w 23 16 16 = n.rejects) ∧
         (n.ordersDone ≤ 65535 → w 24 0 16 = n.ordersDone) ∧
         w 24 16 1 = bitNat f.flags.addrParity ∧ w 24 17 1 = bitNat f.flags.refused ∧
         w 24 18 1 = bitNat f.flags.passedParity ∧ w 24 19 1 = bitNat f.flags.latency ∧
         w 24 20 1 = bitNat f.flags.memFault ∧ w 24 21 1 = bitNat f.flags.eventLoss) ∧
       ((∀ r, HoldsRun f.rail g r → w (k + 2) 24 8 = r.west ∧ w (k + 3) 24 8 = r.east) ∧
         (HoldsNone f.rail g → w (k + 2) 24 8 = 255 ∧ w (k + 3) 24 8 = 255) ∧
         (f.headOf st = none → w (16 + st.val / 2) (16 * (st.val % 2)) 12 = 0) ∧
         ∀ o, f.headOf st = some o → o.tag < 4096 → w (16 + st.val / 2) (16 * (st.val % 2)) 12 = o.tag) ∧
       (f.part = .run → f.gantryOn g = true →
         w k 0 4 = c.state.code ∧
         (c.halt = none → w k 4 8 = 0 ∧ w k 12 4 = 0 ∧ w k 16 8 = 0) ∧
         (∀ h, c.halt = some h → w k 4 8 = h.reason.code ∧ (h.sub = none → w k 12 4 = 0) ∧
           (∀ b, h.sub = some b → w k 12 4 = b.code) ∧ (h.further ≤ 255 → w k 16 8 = h.further)) ∧
         (c.wait.count ≤ 255 → w k 24 8 = c.wait.count) ∧
         (c.pos = none → w (k + 1) 0 24 = 16777215) ∧ (∀ p < 2 ^ 24, c.pos = some p → w (k + 1) 0 24 = p) ∧
         w (k + 1) 26 1 = bitNat c.expected ∧
         (c.carry = none → w (k + 1) 24 2 = 0 ∧ w (k + 2) 0 12 = 0 ∧ w (k + 2) 12 12 = 0) ∧
         (∀ y, c.carry = some y → w (k + 1) 24 2 = y.kind.code ∧ (y.tag < 4096 → w (k + 2) 0 12 = y.tag) ∧
           (y.len < 4096 → w (k + 2) 12 12 = y.len)) ∧
         (c.flight = none → w (k + 1) 28 4 = 0 ∧ w (k + 3) 0 24 = 0) ∧
         ∀ m, c.flight = some m → w (k + 1) 28 4 = m.kind.code ∧ (m.target < 2 ^ 24 → w (k + 3) 0 24 = m.target)) ∧
       (f.part = .run → f.stationOn st = true →
         w j 0 4 = x.state.code ∧ (x.reason = none → w j 4 4 = 0) ∧ (∀ y, x.reason = some y → w j 4 4 = y.code) ∧
         (x.noticeTag < 4096 → w j 8 12 = x.noticeTag) ∧ w j 20 2 = x.saw.code ∧ w j 24 1 = bitNat x.present) ∧
       (f.part = .run → (f.gantryOn g = false → w k 0 4 = 15) ∧ (f.stationOn st = false → w j 0 4 = 15)) ∧
       (f.part ≠ .run →
         wordAt (snapshot s) k = 0x13 ∧ wordAt (snapshot s) (k + 1) = 0xFFFFFF ∧ w (k + 2) 0 12 = 0 ∧
         w (k + 2) 12 12 = 0 ∧ w (k + 3) 0 24 = 0 ∧ wordAt (snapshot s) j = 0x100001)) ∧
  ([PartState.start, .locked, .run].map PartState.code = [1, 2, 3] ∧
    [LoadFault.none, .memory, .crc, .format, .range, .geometry, .overlap, .tags].map LoadFault.code =
      [0, 1, 2, 3, 4, 5, 6, 7] ∧
    [CtxState.idle, .moving, .halted].map CtxState.code = [1, 2, 3] ∧
    [HaltReason.powerOn, .reload, .badMove, .memory, .moveTimeout, .mismatch, .span, .driveFault, .drop,
      .unexpectedGrip, .feedReset].map HaltReason.code = [1, 2, 3, 4, 5, 6, 7, 8, 9, 10, 11] ∧
    [BadMove.kind, .range, .carrying, .noOrder, .orderFaulted, .notAtStack, .notCarrying, .notPlaceable, .notAtStation,
      .notAtBay].map BadMove.code = [1, 2, 3, 4, 5, 6, 7, 8, 9, 10] ∧
    [CarryKind.order, .orphan, .unknown].map CarryKind.code = [1, 2, 3] ∧
    [MoveKind.travel, .pick, .place, .reject].map MoveKind.code = [1, 2, 3, 4] ∧
    [StState.empty, .guard, .assigned, .landing, .loaded, .feeding, .blocked, .fault].map StState.code =
      [1, 2, 3, 4, 5, 6, 7, 8] ∧
    [StReason.unexpectedPanel, .removed, .sawFault, .landingTimeout, .deliveryUnknown, .feedReset].map StReason.code =
      [1, 2, 3, 4, 5, 6] ∧
    [Saw.clear, .busy, .fault].map Saw.code = [1, 2, 3] ∧
    [CellState.free, .held 0, .held 1, .reserved 0, .reserved 1].map CellState.code = [0, 1, 2, 3, 4])

/-- R160, R166, R167: an event is queued with the part's time, or dropped and counted at a full ring or queue, and
neither outside RUN; a counter stops at 65,535, and its flag is set with each raise. -/
def Obligations.EventsAndCounters : Prop :=
  ∀ (f : Feed) (code : EventCode) (subject detail : Nat),
    let c := 2 ^ f.cfg.ringLog
    let occupancy := (f.prod + c - f.cons) % c + f.events.length
    (f.part ≠ .run → f.raise code subject detail = f) ∧
    (f.part = .run → (c - 1 ≤ occupancy ∨ 8 ≤ f.events.length) →
      f.raise code subject detail = { f with
        counts := { f.counts with eventsLost := min (f.counts.eventsLost + 1) 65535 }
        flags := { f.flags with eventLoss := true } }) ∧
    (f.part = .run → occupancy < c - 1 → f.events.length < 8 →
      f.raise code subject detail = { f with events := f.events ++ [⟨code, subject, detail, f.time⟩] }) ∧
    f.count .addrParity = { f with
      counts := { f.counts with addrParity := min (f.counts.addrParity + 1) 65535 }
      flags := { f.flags with addrParity := true } } ∧
    f.count .refused = { f with
      counts := { f.counts with refused := min (f.counts.refused + 1) 65535 }
      flags := { f.flags with refused := true } } ∧
    f.count .passedParity = { f with
      counts := { f.counts with passedParity := min (f.counts.passedParity + 1) 65535 }
      flags := { f.flags with passedParity := true } } ∧
    f.count .latencyRetry = { f with
      counts := { f.counts with latencyRetry := min (f.counts.latencyRetry + 1) 65535 }
      flags := { f.flags with latency := true } } ∧
    f.count .memFault = { f with
      counts := { f.counts with memFault := min (f.counts.memFault + 1) 65535 }
      flags := { f.flags with memFault := true } } ∧
    f.count .mispicks = { f with counts := { f.counts with mispicks := min (f.counts.mispicks + 1) 65535 } } ∧
    f.count .rejects = { f with counts := { f.counts with rejects := min (f.counts.rejects + 1) 65535 } } ∧
    f.count .ordersDone = { f with counts := { f.counts with ordersDone := min (f.counts.ordersDone + 1) 65535 } }

/-! ### Settings and start-up -/

/-- R151, R174 to R177: a bad settings burst, or one not answered within 64 microseconds, locks the part with code
MEMORY; a good one is kept until the fourth, when the image is validated and the part enters RUN or LOCKED. An answer
that comes after the 64 microseconds frees the port and changes nothing else. The elapsed time as an operand is the
model's choice (log 8). -/
def Obligations.SettingsBurstsLoadTheImage : Prop :=
  ∀ (s : State) (o : PortOp) (a : MemAnswer) (us : Nat),
    let result (f : Feed) (image : List Word) (port : Option PortOp) : Host.Outcome State Fault Refusal :=
      .next (settle { s with feed := f, bus := { s.bus with port := port, image := image } })
    s.bus.port = some o → o.kind = .settings → o.op = .read 16 →
    (o.discard = false →
      (goodData (s.readAnswer o a) = none →
        exec (.settingsBurst a) s = result (s.feed.enterLocked .memory) [] none) ∧
      (∀ ws, goodData (s.readAnswer o a) = some ws →
        let image := s.bus.image ++ ws
        (image.length < 64 → exec (.settingsBurst a) s = result s.feed image none) ∧
        (64 ≤ image.length → validate s.anchor s.lcTag image = .none →
          exec (.settingsBurst a) s =
            result (s.feed.enterRun (.ofImage image) s.vacRaw s.presentRaw) [] none) ∧
        (64 ≤ image.length → validate s.anchor s.lcTag image ≠ .none →
          exec (.settingsBurst a) s =
            result (s.feed.enterLocked (validate s.anchor s.lcTag image)) [] none)) ∧
      (64 ≤ us → exec (.settingsBurstTimeout us) s =
        result (s.feed.enterLocked .memory) [] (some { o with discard := true }))) ∧
    (o.discard = true → exec (.settingsBurst a) s = result s.feed s.bus.image none)

/-- R170, R171, R175, section 11.5: the check bit by bit and over "123456789", and that it covers bytes 0 to 251; the
layout of the image; what each test of the validation asks, the accepted values of R170 among them; and the order of
the tests, the first that fails giving the code. That the slot count of an absent window is tested too is the model's
reading (log 24). -/
def Obligations.ImageValidationTakesTheFirstFailingTest : Prop :=
  (crc16 [0x31#8, 0x32#8, 0x33#8, 0x34#8, 0x35#8, 0x36#8, 0x37#8, 0x38#8, 0x39#8] = 0x29B1#16 ∧
    crc16 [] = 0xFFFF#16 ∧
    ∀ (bs : List Byte) (b : Byte),
      let shift (c : BitVec 16) := if c.getLsbD 15 = true then (c <<< 1) ^^^ 0x1021#16 else c <<< 1
      crc16 (bs ++ [b]) =
        shift (shift (shift (shift (shift (shift (shift (shift (crc16 bs ^^^ (b.setWidth 16 <<< 8)))))))))) ∧
  (∀ ws : List Word,
    let w (k lo n : Nat) := (wordAt ws k).toNat / 2 ^ lo % 2 ^ n
    let tag (k lo : Nat) := BitVec.ofNat 3 (w k lo 3)
    Settings.ofImage ws =
      { magic := w 0 0 16, version := w 0 16 8
        gantryCount := w 1 0 8, stationCount := w 1 8 8, stackCount := w 1 16 8, cellCount := w 1 24 8
        cellLen := w 2 0 16, halfWidth := w 2 16 16, margin := w 3 0 16, cmax := w 3 16 16
        stackPos := #v[w 4 0 24, w 5 0 24, w 6 0 24, w 7 0 24]
        stationPos := #v[w 8 0 24, w 9 0 24, w 10 0 24, w 11 0 24, w 12 0 24, w 13 0 24]
        bayPos := w 14 0 24
        guardTime := #v[w 15 0 16, w 15 16 16, w 16 0 16, w 16 16 16, w 17 0 16, w 17 16 16]
        landingTimeout := w 18 0 16, moveTimeout := w 18 16 8, filterTime := w 18 24 8
        threshold := w 19 0 8, bound := w 19 8 8
        driveTag := #v[tag 19 16, tag 19 20]
        sawTag := #v[tag 20 0, tag 20 4, tag 20 8, tag 20 12, tag 20 16, tag 20 20]
        orderWin := ⟨w 21 0 24, w 21 24 8⟩
        moveWin := #v[⟨w 22 0 24, w 22 24 8⟩, ⟨w 23 0 24, w 23 24 8⟩]
        completionWin := #v[⟨w 24 0 24, w 24 24 8⟩, ⟨w 25 0 24, w 25 24 8⟩]
        reportBase := #v[w 26 0 24, w 27 0 24, w 28 0 24, w 29 0 24, w 30 0 24, w 31 0 24]
        noticeBase := #v[w 32 0 24, w 33 0 24, w 34 0 24, w 35 0 24, w 36 0 24, w 37 0 24]
        ringBase := w 38 0 24, ringLog := w 38 24 8 } ∧
    (crcOk ws = true ↔ (crc16 ((ws.take 63).flatMap fun x =>
      [x.extractLsb' 0 8, x.extractLsb' 8 8, x.extractLsb' 16 8, x.extractLsb' 24 8])).toNat = w 63 0 16)) ∧
  (∀ (c : Settings) (anchor : Nat) (lcTag : MasterTag),
    let rail := c.cellCount * c.cellLen
    let gantry (g : Gantry) := g.val < c.gantryCount
    let station (st : StationId) := st.val < c.stationCount
    (rangeOk c = true ↔
      (1 ≤ c.gantryCount ∧ c.gantryCount ≤ 2) ∧ (1 ≤ c.stationCount ∧ c.stationCount ≤ 6) ∧
      (1 ≤ c.stackCount ∧ c.stackCount ≤ 4) ∧ (8 ≤ c.cellCount ∧ c.cellCount ≤ 64) ∧
      (100 ≤ c.cellLen ∧ c.cellLen ≤ 2000) ∧ rail ≤ 128000 ∧ (100 ≤ c.halfWidth ∧ c.halfWidth ≤ 1500) ∧
      c.margin ≤ 1000 ∧ (200 ≤ c.cmax ∧ c.cmax ≤ 3200) ∧ (∀ st, station st → c.guardTime[st] ≤ 10000) ∧
      (100 ≤ c.landingTimeout ∧ c.landingTimeout ≤ 10000) ∧ (1 ≤ c.moveTimeout ∧ c.moveTimeout ≤ 255) ∧
      (1 ≤ c.filterTime ∧ c.filterTime ≤ 50) ∧ (1 ≤ c.threshold ∧ c.threshold ≤ 15) ∧
      (2 ≤ c.bound ∧ c.bound ≤ 64) ∧ (4 ≤ c.ringLog ∧ c.ringLog ≤ 8) ∧
      (4 ≤ c.orderWin.slots ∧ c.orderWin.slots ≤ 64) ∧
      (∀ g, gantry g → (4 ≤ c.moveWin[g].slots ∧ c.moveWin[g].slots ≤ 64) ∧
        (4 ≤ c.completionWin[g].slots ∧ c.completionWin[g].slots ≤ 64)) ∧
      ∀ a x, examined c a = some x → x.base ≠ 0 → x.base % 16 = 0 ∧ x.base + 16 * x.slots ≤ 2 ^ 24) ∧
    (geometryOk c = true ↔
      (∀ k : Fin 4, k.val < c.stackCount → c.stackPos[k] < rail) ∧ (∀ st, station st → c.stationPos[st] < rail) ∧
      c.bayPos < rail ∧ ∀ a x, examined c a = some x → x.base ≠ 0) ∧
    (overlapOk anchor c = true ↔
      (∀ a b x y, a ≠ b → examined c a = some x → examined c b = some y → x.base ≠ 0 → y.base ≠ 0 →
        x.base + 16 * x.slots ≤ y.base ∨ y.base + 16 * y.slots ≤ x.base) ∧
      ∀ a x, examined c a = some x → x.base ≠ 0 →
        x.base + 16 * x.slots ≤ anchor ∨ anchor + 512 ≤ x.base) ∧
    (tagsOk lcTag c = true ↔
      (∀ g, gantry g → c.driveTag[g] ≠ lcTag) ∧
      (∀ g k, gantry g → gantry k → g ≠ k → c.driveTag[g] ≠ c.driveTag[k]) ∧
      ∀ st g, station st → gantry g → c.sawTag[st] ≠ c.driveTag[g])) ∧
  ∀ (anchor : Nat) (lcTag : MasterTag) (ws : List Word),
    let c := Settings.ofImage ws
    validate anchor lcTag ws = (firstFailing
      [ (!crcOk ws, LoadFault.crc), (decide (c.magic ≠ 0x5762 ∨ c.version ≠ 1), .format), (!rangeOk c, .range),
        (!geometryOk c, .geometry), (!overlapOk anchor c, .overlap), (!tagsOk lcTag c, .tags) ]).getD .none

/-- R3, R23, R24, R25, R69, R97, R98, R159, R176, R177: what entering LOCKED and entering RUN leave. -/
def Obligations.EnteringLockedAndRun : Prop :=
  ∀ (f : Feed) (c : Settings) (code : LoadFault) (vacRaw : Vector Bool 2) (presentRaw : Vector Bool 6)
    (g : Gantry) (st : StationId),
    let l := f.enterLocked code
    let u := f.enterRun c vacRaw presentRaw
    let kept := f.cause = .reload ∧ g.val < f.cfg.gantryCount
    let keptSt := f.cause = .reload ∧ st.val < f.cfg.stationCount
    let sensed (x : Station) : Station := { x with
      present := presentRaw[st]
      state := if presentRaw[st] then .blocked else .empty
      reason := if presentRaw[st] then some .unexpectedPanel else none }
    (l.part = .locked ∧ l.loadFault = code ∧ (∀ i, cellAt l.rail i = .free) ∧ l.ctx[g] = .powerOn f.time ∧
      l.vac[g] = ⟨false, none⟩ ∧ l.orders = [] ∧ l.stations[st] = .powerOn ∧ l.blockReport = .armed ∧ l.notices = [] ∧
      l.events = [] ∧ l.prod = 0 ∧ l.cons = 0 ∧ l.counts = f.counts ∧ l.flags = f.flags ∧ l.time = f.time) ∧
    (u.part = .run ∧ u.loadFault = .none ∧ u.cfg = c ∧ (∀ i, cellAt u.rail i = .free) ∧ u.orders = [] ∧
      u.blockReport = .armed ∧ u.notices = [] ∧ u.prod = 0 ∧ u.cons = 0 ∧ u.time = f.time ∧
      (1 ≤ c.ringLog → u.events = [⟨.settingsLoaded, 15, f.cause.code, f.time⟩] ∧ u.counts = f.counts ∧
        u.flags = f.flags)) ∧
    (c.gantryCount ≤ g.val → u.ctx[g] = .powerOn f.time ∧ u.vac[g].level = false) ∧
    (g.val < c.gantryCount → u.vac[g] = ⟨vacRaw[g], none⟩ ∧
      (¬kept → u.ctx[g] = .powerOn f.time) ∧
      (kept → u.ctx[g] = { Ctx.powerOn f.time with
        halt := some ⟨.reload, none, f.time, 0⟩
        pos := f.ctx[g].pos.filter fun p => decide (p < c.railLen)
        expected := f.ctx[g].expected
        lastDone := f.ctx[g].lastDone })) ∧
    (c.stationCount ≤ st.val → u.stations[st] = .powerOn) ∧
    (st.val < c.stationCount →
      (¬keptSt → u.stations[st] = sensed .powerOn) ∧
      (keptSt → u.stations[st] = sensed { Station.powerOn with
        reportToggle := f.stations[st].reportToggle
        noticeToggle := f.stations[st].noticeToggle
        noticeTag := f.stations[st].noticeTag
        noticeBatch := f.stations[st].noticeBatch }))

/-! ### Reset, pins and time -/

/-- R154, R173: RESET_N asserted retries what is in hand and ends it, and memory may or may not hold the words of a write
in progress and of an open posted write, all else in memory standing; released, it samples the straps, and every block
takes its power-on values in START. The model's choices here are that counters, flags and time stand until the release
(log 17), that a held write waiting for its grant never reaches memory (log 38), that the turn after the release is the
own side's (log 14), that the last answer is kept (log 25), and that a release without an assertion does the same (log
28). -/
def Obligations.ResetAssertAndRelease : Prop :=
  ∀ (s : State) (base : BitVec 4) (lcTag : MasterTag),
    (∃ t, exec .resetAssert s = .next t ∧ t.resetLow = true ∧
      t.bus = { s.bus with
        onBus := none, held := none, posted := none, port := none, turn := none, image := []
        answer := if s.bus.onBus.isSome = true ∨ s.bus.held.isSome = true then some ⟨.retry, []⟩ else s.bus.answer } ∧
      t.base = s.base ∧ t.lcTag = s.lcTag ∧ t.vacRaw = s.vacRaw ∧ t.presentRaw = s.presentRaw ∧
      t.feed.counts = s.feed.counts ∧ t.feed.flags = s.feed.flags ∧ t.feed.time = s.feed.time ∧
      t.holdOut = true ∧ t.alertOut = false ∧ (∀ st, t.permitOut st = false) ∧
      ((∀ o, s.bus.port = some o → o.op = .read o.op.len) → s.bus.posted = none → t.mem = s.mem) ∧
      ∀ x, (∀ o ws, s.bus.port = some o → o.op = .write ws → x < o.addr ∨ o.addr + 4 * ws.length ≤ x) →
        (∀ p, s.bus.posted = some p → x < p.addr ∨ p.addr + 4 * p.words.length ≤ x) →
        t.mem.readByte x = s.mem.readByte x) ∧
    ∃ t, exec (.resetRelease base lcTag) s = .next t ∧ t.resetLow = false ∧ t.base = base ∧ t.lcTag = lcTag ∧
      t.feed.part = .start ∧ t.feed.cause = .reset ∧ t.feed.loadFault = .none ∧ t.feed.time = 0 ∧
      t.feed.counts = ⟨0, 0, 0, 0, 0, 0, 0, 0, 0⟩ ∧ t.feed.flags = ⟨false, false, false, false, false, false⟩ ∧
      (∀ i, cellAt t.feed.rail i = .free) ∧ (∀ g : Gantry, t.feed.ctx[g] = .powerOn 0) ∧ t.feed.orders = [] ∧
      (∀ st : StationId, t.feed.stations[st] = .powerOn) ∧ t.feed.prod = 0 ∧ t.feed.cons = 0 ∧ t.feed.events = [] ∧
      t.feed.notices = [] ∧ t.feed.blockReport = .armed ∧ t.bus.onBus = none ∧ t.bus.held = none ∧
      t.bus.posted = none ∧ t.bus.answer = s.bus.answer ∧ t.bus.port = none ∧ t.bus.lastGrant = .forwarder ∧
      t.bus.turn = some .own ∧ t.mem = s.mem ∧ t.vacRaw = s.vacRaw ∧ t.presentRaw = s.presentRaw

/-! ### The laws the part keeps -/

/-- The state right after reset satisfies every law below. -/
def Obligations.ResetSatisfiesTheLaws : Prop :=
  RailInv State.reset.feed ∧ IdleHolds State.reset.feed ∧ (∀ g : Gantry, CtxLaw State.reset.feed.ctx[g]) ∧
  RingLaw State.reset.feed ∧ OrderInv State.reset.feed ∧ StationInv State.reset.feed ∧ State.reset.mem.wf = true

/-- R17: every step keeps the law of the rail: one contiguous run a gantry, gantry 0's west of gantry 1's, and the
swept span of every in-flight move held. -/
def Obligations.EveryStepKeepsTheRailLaw : Prop :=
  ∀ s t : State, RailInv s.feed → step s = .next t → RailInv t.feed

/-- R18: every step keeps that an IDLE context holds exactly its occupancy span at its known position. -/
def Obligations.EveryStepKeepsTheIdleSpan : Prop :=
  ∀ s t : State, IdleHolds s.feed → step s = .next t → IdleHolds t.feed

/-- R21, R22: every step keeps what a context holds in each of its states. -/
def Obligations.EveryStepKeepsTheContextLaw : Prop :=
  ∀ s t : State, (∀ g : Gantry, CtxLaw s.feed.ctx[g]) → step s = .next t → ∀ g : Gantry, CtxLaw t.feed.ctx[g]

/-- R163: every step keeps the event ring occupancy at most C - 1. -/
def Obligations.EveryStepKeepsTheRingLaw : Prop :=
  ∀ s t : State, RingLaw s.feed → step s = .next t → RingLaw t.feed

/-- R92: every step keeps the panel-count law, with the laws of the list and of the carries that it rests on. -/
def Obligations.EveryStepKeepsThePanelLaw : Prop :=
  ∀ s t : State, OrderInv s.feed → step s = .next t → OrderInv t.feed

/-- R108: every step keeps that a station is ASSIGNED only while exactly one context has an in-flight PLACE to it. -/
def Obligations.EveryStepKeepsTheStationLaw : Prop :=
  ∀ s t : State, StationInv s.feed → step s = .next t → StationInv t.feed

/-- Every step keeps job memory in its canonical form (log 3). -/
def Obligations.EveryStepKeepsMemoryCanonical : Prop :=
  ∀ s t : State, s.mem.wf = true → step s = .next t → t.mem.wf = true
end

