-- ==== Sys2Proof/Laws/State.lean ====
section
/-! SUPPORT. What each update of State and Feed leaves and sets, field by field, so that no proof unfolds a record
update. -/

namespace Sys2Proof.Machine

/-! ### State.onFeed -/

@[simp] theorem State.onFeed_resetLow (h : Feed → Feed) (s : State) : (s.onFeed h).resetLow = s.resetLow := rfl
@[simp] theorem State.onFeed_vacRaw (h : Feed → Feed) (s : State) : (s.onFeed h).vacRaw = s.vacRaw := rfl
@[simp] theorem State.onFeed_presentRaw (h : Feed → Feed) (s : State) : (s.onFeed h).presentRaw = s.presentRaw := rfl
@[simp] theorem State.onFeed_base (h : Feed → Feed) (s : State) : (s.onFeed h).base = s.base := rfl
@[simp] theorem State.onFeed_lcTag (h : Feed → Feed) (s : State) : (s.onFeed h).lcTag = s.lcTag := rfl
@[simp] theorem State.onFeed_feed (h : Feed → Feed) (s : State) : (s.onFeed h).feed = h s.feed := rfl
@[simp] theorem State.onFeed_bus (h : Feed → Feed) (s : State) : (s.onFeed h).bus = s.bus := rfl
@[simp] theorem State.onFeed_mem (h : Feed → Feed) (s : State) : (s.onFeed h).mem = s.mem := rfl
@[simp] theorem State.onFeed_openCount (h : Feed → Feed) (s : State) : (s.onFeed h).openCount = s.openCount := rfl
@[simp] theorem State.onFeed_pending (h : Feed → Feed) (s : State) : (s.onFeed h).pending = s.pending := rfl

/-! ### State.reply -/

@[simp] theorem State.reply_resetLow (k : AnswerKind) (s : State) : (s.reply k).resetLow = s.resetLow := rfl
@[simp] theorem State.reply_vacRaw (k : AnswerKind) (s : State) : (s.reply k).vacRaw = s.vacRaw := rfl
@[simp] theorem State.reply_presentRaw (k : AnswerKind) (s : State) : (s.reply k).presentRaw = s.presentRaw := rfl
@[simp] theorem State.reply_base (k : AnswerKind) (s : State) : (s.reply k).base = s.base := rfl
@[simp] theorem State.reply_lcTag (k : AnswerKind) (s : State) : (s.reply k).lcTag = s.lcTag := rfl
@[simp] theorem State.reply_feed (k : AnswerKind) (s : State) : (s.reply k).feed = s.feed := rfl
@[simp] theorem State.reply_bus (k : AnswerKind) (s : State) : (s.reply k).bus = { s.bus with answer := some ⟨k, []⟩ } := rfl
@[simp] theorem State.reply_mem (k : AnswerKind) (s : State) : (s.reply k).mem = s.mem := rfl
@[simp] theorem State.reply_openCount (k : AnswerKind) (s : State) : (s.reply k).openCount = s.openCount := rfl
@[simp] theorem State.reply_pending (k : AnswerKind) (s : State) : (s.reply k).pending = s.pending := rfl

/-! ### State.replyData -/

@[simp] theorem State.replyData_resetLow (ws : List PWord) (s : State) : (s.replyData ws).resetLow = s.resetLow := rfl
@[simp] theorem State.replyData_vacRaw (ws : List PWord) (s : State) : (s.replyData ws).vacRaw = s.vacRaw := rfl
@[simp] theorem State.replyData_presentRaw (ws : List PWord) (s : State) : (s.replyData ws).presentRaw = s.presentRaw := rfl
@[simp] theorem State.replyData_base (ws : List PWord) (s : State) : (s.replyData ws).base = s.base := rfl
@[simp] theorem State.replyData_lcTag (ws : List PWord) (s : State) : (s.replyData ws).lcTag = s.lcTag := rfl
@[simp] theorem State.replyData_feed (ws : List PWord) (s : State) : (s.replyData ws).feed = s.feed := rfl
@[simp] theorem State.replyData_bus (ws : List PWord) (s : State) : (s.replyData ws).bus = { s.bus with answer := some ⟨.done, ws⟩ } := rfl
@[simp] theorem State.replyData_mem (ws : List PWord) (s : State) : (s.replyData ws).mem = s.mem := rfl
@[simp] theorem State.replyData_openCount (ws : List PWord) (s : State) : (s.replyData ws).openCount = s.openCount := rfl
@[simp] theorem State.replyData_pending (ws : List PWord) (s : State) : (s.replyData ws).pending = s.pending := rfl

/-! ### State.refuse -/

@[simp] theorem State.refuse_resetLow (s : State) : (s.refuse).resetLow = s.resetLow := rfl
@[simp] theorem State.refuse_vacRaw (s : State) : (s.refuse).vacRaw = s.vacRaw := rfl
@[simp] theorem State.refuse_presentRaw (s : State) : (s.refuse).presentRaw = s.presentRaw := rfl
@[simp] theorem State.refuse_base (s : State) : (s.refuse).base = s.base := rfl
@[simp] theorem State.refuse_lcTag (s : State) : (s.refuse).lcTag = s.lcTag := rfl
@[simp] theorem State.refuse_feed (s : State) : (s.refuse).feed = s.feed.count .refused := rfl
@[simp] theorem State.refuse_bus (s : State) : (s.refuse).bus = { s.bus with answer := some ⟨.refuse, []⟩ } := rfl
@[simp] theorem State.refuse_mem (s : State) : (s.refuse).mem = s.mem := rfl
@[simp] theorem State.refuse_openCount (s : State) : (s.refuse).openCount = s.openCount := rfl
@[simp] theorem State.refuse_pending (s : State) : (s.refuse).pending = s.pending := rfl

/-! ### State.post -/

@[simp] theorem State.post_resetLow (t : Txn) (a : Area) (ws : List Word) (r : Bool) (b : Nat) (s : State) :
    (s.post t a ws r b).resetLow = s.resetLow := rfl
@[simp] theorem State.post_vacRaw (t : Txn) (a : Area) (ws : List Word) (r : Bool) (b : Nat) (s : State) :
    (s.post t a ws r b).vacRaw = s.vacRaw := rfl
@[simp] theorem State.post_presentRaw (t : Txn) (a : Area) (ws : List Word) (r : Bool) (b : Nat) (s : State) :
    (s.post t a ws r b).presentRaw = s.presentRaw := rfl
@[simp] theorem State.post_base (t : Txn) (a : Area) (ws : List Word) (r : Bool) (b : Nat) (s : State) :
    (s.post t a ws r b).base = s.base := rfl
@[simp] theorem State.post_lcTag (t : Txn) (a : Area) (ws : List Word) (r : Bool) (b : Nat) (s : State) :
    (s.post t a ws r b).lcTag = s.lcTag := rfl
@[simp] theorem State.post_feed (t : Txn) (a : Area) (ws : List Word) (r : Bool) (b : Nat) (s : State) :
    (s.post t a ws r b).feed = s.feed := rfl
@[simp] theorem State.post_bus (t : Txn) (a : Area) (ws : List Word) (r : Bool) (b : Nat) (s : State) :
    (s.post t a ws r b).bus = { s.bus with
      answer := some ⟨.done, []⟩, posted := some ⟨t.tag, a, t.addr.toNat, outWords ws, b, r⟩ } := rfl
@[simp] theorem State.post_mem (t : Txn) (a : Area) (ws : List Word) (r : Bool) (b : Nat) (s : State) :
    (s.post t a ws r b).mem = s.mem := rfl
@[simp] theorem State.post_openCount (t : Txn) (a : Area) (ws : List Word) (r : Bool) (b : Nat) (s : State) :
    (s.post t a ws r b).openCount = s.openCount := rfl
@[simp] theorem State.post_pending (t : Txn) (a : Area) (ws : List Word) (r : Bool) (b : Nat) (s : State) :
    (s.post t a ws r b).pending = s.pending := rfl

/-! ### State.unanswered -/

@[simp] theorem State.unanswered_resetLow (s : State) : (s.unanswered).resetLow = s.resetLow := rfl
@[simp] theorem State.unanswered_vacRaw (s : State) : (s.unanswered).vacRaw = s.vacRaw := rfl
@[simp] theorem State.unanswered_presentRaw (s : State) : (s.unanswered).presentRaw = s.presentRaw := rfl
@[simp] theorem State.unanswered_base (s : State) : (s.unanswered).base = s.base := rfl
@[simp] theorem State.unanswered_lcTag (s : State) : (s.unanswered).lcTag = s.lcTag := rfl
@[simp] theorem State.unanswered_feed (s : State) : (s.unanswered).feed = s.feed := rfl
@[simp] theorem State.unanswered_bus (s : State) : (s.unanswered).bus = { s.bus with answer := none } := rfl
@[simp] theorem State.unanswered_mem (s : State) : (s.unanswered).mem = s.mem := rfl
@[simp] theorem State.unanswered_openCount (s : State) : (s.unanswered).openCount = s.openCount := rfl
@[simp] theorem State.unanswered_pending (s : State) : (s.unanswered).pending = s.pending := rfl

/-! ### State.hold -/

@[simp] theorem State.hold_resetLow (t : Txn) (j : Option Gantry) (s : State) : (s.hold t j).resetLow = s.resetLow := rfl
@[simp] theorem State.hold_vacRaw (t : Txn) (j : Option Gantry) (s : State) : (s.hold t j).vacRaw = s.vacRaw := rfl
@[simp] theorem State.hold_presentRaw (t : Txn) (j : Option Gantry) (s : State) : (s.hold t j).presentRaw = s.presentRaw := rfl
@[simp] theorem State.hold_base (t : Txn) (j : Option Gantry) (s : State) : (s.hold t j).base = s.base := rfl
@[simp] theorem State.hold_lcTag (t : Txn) (j : Option Gantry) (s : State) : (s.hold t j).lcTag = s.lcTag := rfl
@[simp] theorem State.hold_feed (t : Txn) (j : Option Gantry) (s : State) : (s.hold t j).feed = s.feed := rfl
@[simp] theorem State.hold_bus (t : Txn) (j : Option Gantry) (s : State) : (s.hold t j).bus = { s.bus with held := some ⟨t, j, s.boundNow⟩ } := rfl
@[simp] theorem State.hold_mem (t : Txn) (j : Option Gantry) (s : State) : (s.hold t j).mem = s.mem := rfl
@[simp] theorem State.hold_openCount (t : Txn) (j : Option Gantry) (s : State) : (s.hold t j).openCount = s.openCount := rfl
@[simp] theorem State.hold_pending (t : Txn) (j : Option Gantry) (s : State) : (s.hold t j).pending = s.pending := rfl

/-! ### State.unhold -/

@[simp] theorem State.unhold_resetLow (s : State) : (s.unhold).resetLow = s.resetLow := rfl
@[simp] theorem State.unhold_vacRaw (s : State) : (s.unhold).vacRaw = s.vacRaw := rfl
@[simp] theorem State.unhold_presentRaw (s : State) : (s.unhold).presentRaw = s.presentRaw := rfl
@[simp] theorem State.unhold_base (s : State) : (s.unhold).base = s.base := rfl
@[simp] theorem State.unhold_lcTag (s : State) : (s.unhold).lcTag = s.lcTag := rfl
@[simp] theorem State.unhold_feed (s : State) : (s.unhold).feed = s.feed := rfl
@[simp] theorem State.unhold_bus (s : State) : (s.unhold).bus = { s.bus with held := none } := rfl
@[simp] theorem State.unhold_mem (s : State) : (s.unhold).mem = s.mem := rfl
@[simp] theorem State.unhold_openCount (s : State) : (s.unhold).openCount = s.openCount := rfl
@[simp] theorem State.unhold_pending (s : State) : (s.unhold).pending = s.pending := rfl

/-! ### State.freePort -/

@[simp] theorem State.freePort_resetLow (s : State) : (s.freePort).resetLow = s.resetLow := rfl
@[simp] theorem State.freePort_vacRaw (s : State) : (s.freePort).vacRaw = s.vacRaw := rfl
@[simp] theorem State.freePort_presentRaw (s : State) : (s.freePort).presentRaw = s.presentRaw := rfl
@[simp] theorem State.freePort_base (s : State) : (s.freePort).base = s.base := rfl
@[simp] theorem State.freePort_lcTag (s : State) : (s.freePort).lcTag = s.lcTag := rfl
@[simp] theorem State.freePort_feed (s : State) : (s.freePort).feed = s.feed := rfl
@[simp] theorem State.freePort_bus (s : State) : (s.freePort).bus = { s.bus with port := none } := rfl
@[simp] theorem State.freePort_mem (s : State) : (s.freePort).mem = s.mem := rfl
@[simp] theorem State.freePort_openCount (s : State) : (s.freePort).openCount = s.openCount := rfl
@[simp] theorem State.freePort_pending (s : State) : (s.freePort).pending = s.pending := rfl

/-! ### settle -/

@[simp] theorem settle_resetLow (s : State) : (settle s).resetLow = s.resetLow := rfl
@[simp] theorem settle_vacRaw (s : State) : (settle s).vacRaw = s.vacRaw := rfl
@[simp] theorem settle_presentRaw (s : State) : (settle s).presentRaw = s.presentRaw := rfl
@[simp] theorem settle_base (s : State) : (settle s).base = s.base := rfl
@[simp] theorem settle_lcTag (s : State) : (settle s).lcTag = s.lcTag := rfl
@[simp] theorem settle_feed (s : State) : (settle s).feed = s.feed := rfl
@[simp] theorem settle_bus (s : State) : (settle s).bus = { s.bus with turn := s.turnNow } := rfl
@[simp] theorem settle_mem (s : State) : (settle s).mem = s.mem := rfl
@[simp] theorem settle_openCount (s : State) : (settle s).openCount = s.openCount := rfl
@[simp] theorem settle_pending (s : State) : (settle s).pending = s.pending := rfl

/-! ### Feed.count -/

@[simp] theorem Feed.count_part (c : Counter) (f : Feed) : (f.count c).part = f.part := rfl
@[simp] theorem Feed.count_cause (c : Counter) (f : Feed) : (f.count c).cause = f.cause := rfl
@[simp] theorem Feed.count_loadFault (c : Counter) (f : Feed) : (f.count c).loadFault = f.loadFault := rfl
@[simp] theorem Feed.count_time (c : Counter) (f : Feed) : (f.count c).time = f.time := rfl
@[simp] theorem Feed.count_cfg (c : Counter) (f : Feed) : (f.count c).cfg = f.cfg := rfl
@[simp] theorem Feed.count_rail (c : Counter) (f : Feed) : (f.count c).rail = f.rail := rfl
@[simp] theorem Feed.count_ctx (c : Counter) (f : Feed) : (f.count c).ctx = f.ctx := rfl
@[simp] theorem Feed.count_vac (c : Counter) (f : Feed) : (f.count c).vac = f.vac := rfl
@[simp] theorem Feed.count_orders (c : Counter) (f : Feed) : (f.count c).orders = f.orders := rfl
@[simp] theorem Feed.count_stations (c : Counter) (f : Feed) : (f.count c).stations = f.stations := rfl
@[simp] theorem Feed.count_blockReport (c : Counter) (f : Feed) : (f.count c).blockReport = f.blockReport := rfl
@[simp] theorem Feed.count_notices (c : Counter) (f : Feed) : (f.count c).notices = f.notices := rfl
@[simp] theorem Feed.count_events (c : Counter) (f : Feed) : (f.count c).events = f.events := rfl
@[simp] theorem Feed.count_prod (c : Counter) (f : Feed) : (f.count c).prod = f.prod := rfl
@[simp] theorem Feed.count_cons (c : Counter) (f : Feed) : (f.count c).cons = f.cons := rfl
@[simp] theorem Feed.count_counts (c : Counter) (f : Feed) : (f.count c).counts = f.counts.raise c := rfl
@[simp] theorem Feed.count_flags (c : Counter) (f : Feed) : (f.count c).flags = f.flags.raise c := rfl

/-! ### Feed.modCtx -/

@[simp] theorem Feed.modCtx_part (g : Gantry) (h : Ctx → Ctx) (f : Feed) : (f.modCtx g h).part = f.part := rfl
@[simp] theorem Feed.modCtx_cause (g : Gantry) (h : Ctx → Ctx) (f : Feed) : (f.modCtx g h).cause = f.cause := rfl
@[simp] theorem Feed.modCtx_loadFault (g : Gantry) (h : Ctx → Ctx) (f : Feed) :
    (f.modCtx g h).loadFault = f.loadFault := rfl
@[simp] theorem Feed.modCtx_time (g : Gantry) (h : Ctx → Ctx) (f : Feed) : (f.modCtx g h).time = f.time := rfl
@[simp] theorem Feed.modCtx_cfg (g : Gantry) (h : Ctx → Ctx) (f : Feed) : (f.modCtx g h).cfg = f.cfg := rfl
@[simp] theorem Feed.modCtx_rail (g : Gantry) (h : Ctx → Ctx) (f : Feed) : (f.modCtx g h).rail = f.rail := rfl
@[simp] theorem Feed.modCtx_ctx (g : Gantry) (h : Ctx → Ctx) (f : Feed) :
    (f.modCtx g h).ctx = f.ctx.set g (h f.ctx[g]) := rfl
@[simp] theorem Feed.modCtx_vac (g : Gantry) (h : Ctx → Ctx) (f : Feed) : (f.modCtx g h).vac = f.vac := rfl
@[simp] theorem Feed.modCtx_orders (g : Gantry) (h : Ctx → Ctx) (f : Feed) : (f.modCtx g h).orders = f.orders := rfl
@[simp] theorem Feed.modCtx_stations (g : Gantry) (h : Ctx → Ctx) (f : Feed) :
    (f.modCtx g h).stations = f.stations := rfl
@[simp] theorem Feed.modCtx_blockReport (g : Gantry) (h : Ctx → Ctx) (f : Feed) :
    (f.modCtx g h).blockReport = f.blockReport := rfl
@[simp] theorem Feed.modCtx_notices (g : Gantry) (h : Ctx → Ctx) (f : Feed) :
    (f.modCtx g h).notices = f.notices := rfl
@[simp] theorem Feed.modCtx_events (g : Gantry) (h : Ctx → Ctx) (f : Feed) : (f.modCtx g h).events = f.events := rfl
@[simp] theorem Feed.modCtx_prod (g : Gantry) (h : Ctx → Ctx) (f : Feed) : (f.modCtx g h).prod = f.prod := rfl
@[simp] theorem Feed.modCtx_cons (g : Gantry) (h : Ctx → Ctx) (f : Feed) : (f.modCtx g h).cons = f.cons := rfl
@[simp] theorem Feed.modCtx_counts (g : Gantry) (h : Ctx → Ctx) (f : Feed) : (f.modCtx g h).counts = f.counts := rfl
@[simp] theorem Feed.modCtx_flags (g : Gantry) (h : Ctx → Ctx) (f : Feed) : (f.modCtx g h).flags = f.flags := rfl

/-! ### Feed.modStation -/

@[simp] theorem Feed.modStation_part (st : StationId) (h : Station → Station) (f : Feed) :
    (f.modStation st h).part = f.part := rfl
@[simp] theorem Feed.modStation_cause (st : StationId) (h : Station → Station) (f : Feed) :
    (f.modStation st h).cause = f.cause := rfl
@[simp] theorem Feed.modStation_loadFault (st : StationId) (h : Station → Station) (f : Feed) :
    (f.modStation st h).loadFault = f.loadFault := rfl
@[simp] theorem Feed.modStation_time (st : StationId) (h : Station → Station) (f : Feed) :
    (f.modStation st h).time = f.time := rfl
@[simp] theorem Feed.modStation_cfg (st : StationId) (h : Station → Station) (f : Feed) :
    (f.modStation st h).cfg = f.cfg := rfl
@[simp] theorem Feed.modStation_rail (st : StationId) (h : Station → Station) (f : Feed) :
    (f.modStation st h).rail = f.rail := rfl
@[simp] theorem Feed.modStation_ctx (st : StationId) (h : Station → Station) (f : Feed) :
    (f.modStation st h).ctx = f.ctx := rfl
@[simp] theorem Feed.modStation_vac (st : StationId) (h : Station → Station) (f : Feed) :
    (f.modStation st h).vac = f.vac := rfl
@[simp] theorem Feed.modStation_orders (st : StationId) (h : Station → Station) (f : Feed) :
    (f.modStation st h).orders = f.orders := rfl
@[simp] theorem Feed.modStation_stations (st : StationId) (h : Station → Station) (f : Feed) :
    (f.modStation st h).stations = f.stations.set st (h f.stations[st]) := rfl
@[simp] theorem Feed.modStation_blockReport (st : StationId) (h : Station → Station) (f : Feed) :
    (f.modStation st h).blockReport = f.blockReport := rfl
@[simp] theorem Feed.modStation_notices (st : StationId) (h : Station → Station) (f : Feed) :
    (f.modStation st h).notices = f.notices := rfl
@[simp] theorem Feed.modStation_events (st : StationId) (h : Station → Station) (f : Feed) :
    (f.modStation st h).events = f.events := rfl
@[simp] theorem Feed.modStation_prod (st : StationId) (h : Station → Station) (f : Feed) :
    (f.modStation st h).prod = f.prod := rfl
@[simp] theorem Feed.modStation_cons (st : StationId) (h : Station → Station) (f : Feed) :
    (f.modStation st h).cons = f.cons := rfl
@[simp] theorem Feed.modStation_counts (st : StationId) (h : Station → Station) (f : Feed) :
    (f.modStation st h).counts = f.counts := rfl
@[simp] theorem Feed.modStation_flags (st : StationId) (h : Station → Station) (f : Feed) :
    (f.modStation st h).flags = f.flags := rfl

/-! ### Feed.modOrder -/

@[simp] theorem Feed.modOrder_part (tag : Nat) (h : Order → Order) (f : Feed) :
    (f.modOrder tag h).part = f.part := rfl
@[simp] theorem Feed.modOrder_cause (tag : Nat) (h : Order → Order) (f : Feed) :
    (f.modOrder tag h).cause = f.cause := rfl
@[simp] theorem Feed.modOrder_loadFault (tag : Nat) (h : Order → Order) (f : Feed) :
    (f.modOrder tag h).loadFault = f.loadFault := rfl
@[simp] theorem Feed.modOrder_time (tag : Nat) (h : Order → Order) (f : Feed) :
    (f.modOrder tag h).time = f.time := rfl
@[simp] theorem Feed.modOrder_cfg (tag : Nat) (h : Order → Order) (f : Feed) : (f.modOrder tag h).cfg = f.cfg := rfl
@[simp] theorem Feed.modOrder_rail (tag : Nat) (h : Order → Order) (f : Feed) :
    (f.modOrder tag h).rail = f.rail := rfl
@[simp] theorem Feed.modOrder_ctx (tag : Nat) (h : Order → Order) (f : Feed) : (f.modOrder tag h).ctx = f.ctx := rfl
@[simp] theorem Feed.modOrder_vac (tag : Nat) (h : Order → Order) (f : Feed) : (f.modOrder tag h).vac = f.vac := rfl
@[simp] theorem Feed.modOrder_orders (tag : Nat) (h : Order → Order) (f : Feed) :
    (f.modOrder tag h).orders = f.orders.map fun o => if o.tag = tag then h o else o := rfl
@[simp] theorem Feed.modOrder_stations (tag : Nat) (h : Order → Order) (f : Feed) :
    (f.modOrder tag h).stations = f.stations := rfl
@[simp] theorem Feed.modOrder_blockReport (tag : Nat) (h : Order → Order) (f : Feed) :
    (f.modOrder tag h).blockReport = f.blockReport := rfl
@[simp] theorem Feed.modOrder_notices (tag : Nat) (h : Order → Order) (f : Feed) :
    (f.modOrder tag h).notices = f.notices := rfl
@[simp] theorem Feed.modOrder_events (tag : Nat) (h : Order → Order) (f : Feed) :
    (f.modOrder tag h).events = f.events := rfl
@[simp] theorem Feed.modOrder_prod (tag : Nat) (h : Order → Order) (f : Feed) :
    (f.modOrder tag h).prod = f.prod := rfl
@[simp] theorem Feed.modOrder_cons (tag : Nat) (h : Order → Order) (f : Feed) :
    (f.modOrder tag h).cons = f.cons := rfl
@[simp] theorem Feed.modOrder_counts (tag : Nat) (h : Order → Order) (f : Feed) :
    (f.modOrder tag h).counts = f.counts := rfl
@[simp] theorem Feed.modOrder_flags (tag : Nat) (h : Order → Order) (f : Feed) :
    (f.modOrder tag h).flags = f.flags := rfl

/-! ### Feed.setCarry -/

@[simp] theorem Feed.setCarry_part (g : Gantry) (k : Option Carry) (f : Feed) : (f.setCarry g k).part = f.part := rfl
@[simp] theorem Feed.setCarry_cause (g : Gantry) (k : Option Carry) (f : Feed) :
    (f.setCarry g k).cause = f.cause := rfl
@[simp] theorem Feed.setCarry_loadFault (g : Gantry) (k : Option Carry) (f : Feed) :
    (f.setCarry g k).loadFault = f.loadFault := rfl
@[simp] theorem Feed.setCarry_time (g : Gantry) (k : Option Carry) (f : Feed) : (f.setCarry g k).time = f.time := rfl
@[simp] theorem Feed.setCarry_cfg (g : Gantry) (k : Option Carry) (f : Feed) : (f.setCarry g k).cfg = f.cfg := rfl
@[simp] theorem Feed.setCarry_rail (g : Gantry) (k : Option Carry) (f : Feed) : (f.setCarry g k).rail = f.rail := rfl
@[simp] theorem Feed.setCarry_ctx (g : Gantry) (k : Option Carry) (f : Feed) :
    (f.setCarry g k).ctx = f.ctx.set g { f.ctx[g] with carry := k } := rfl
@[simp] theorem Feed.setCarry_vac (g : Gantry) (k : Option Carry) (f : Feed) : (f.setCarry g k).vac = f.vac := rfl
@[simp] theorem Feed.setCarry_orders (g : Gantry) (k : Option Carry) (f : Feed) :
    (f.setCarry g k).orders = f.orders := rfl
@[simp] theorem Feed.setCarry_stations (g : Gantry) (k : Option Carry) (f : Feed) :
    (f.setCarry g k).stations = f.stations := rfl
@[simp] theorem Feed.setCarry_blockReport (g : Gantry) (k : Option Carry) (f : Feed) :
    (f.setCarry g k).blockReport = f.blockReport := rfl
@[simp] theorem Feed.setCarry_notices (g : Gantry) (k : Option Carry) (f : Feed) :
    (f.setCarry g k).notices = f.notices := rfl
@[simp] theorem Feed.setCarry_events (g : Gantry) (k : Option Carry) (f : Feed) :
    (f.setCarry g k).events = f.events := rfl
@[simp] theorem Feed.setCarry_prod (g : Gantry) (k : Option Carry) (f : Feed) : (f.setCarry g k).prod = f.prod := rfl
@[simp] theorem Feed.setCarry_cons (g : Gantry) (k : Option Carry) (f : Feed) : (f.setCarry g k).cons = f.cons := rfl
@[simp] theorem Feed.setCarry_counts (g : Gantry) (k : Option Carry) (f : Feed) :
    (f.setCarry g k).counts = f.counts := rfl
@[simp] theorem Feed.setCarry_flags (g : Gantry) (k : Option Carry) (f : Feed) :
    (f.setCarry g k).flags = f.flags := rfl

/-! ### Feed.setVac -/

@[simp] theorem Feed.setVac_part (g : Gantry) (x : Filter) (f : Feed) : (f.setVac g x).part = f.part := rfl
@[simp] theorem Feed.setVac_cause (g : Gantry) (x : Filter) (f : Feed) : (f.setVac g x).cause = f.cause := rfl
@[simp] theorem Feed.setVac_loadFault (g : Gantry) (x : Filter) (f : Feed) :
    (f.setVac g x).loadFault = f.loadFault := rfl
@[simp] theorem Feed.setVac_time (g : Gantry) (x : Filter) (f : Feed) : (f.setVac g x).time = f.time := rfl
@[simp] theorem Feed.setVac_cfg (g : Gantry) (x : Filter) (f : Feed) : (f.setVac g x).cfg = f.cfg := rfl
@[simp] theorem Feed.setVac_rail (g : Gantry) (x : Filter) (f : Feed) : (f.setVac g x).rail = f.rail := rfl
@[simp] theorem Feed.setVac_ctx (g : Gantry) (x : Filter) (f : Feed) : (f.setVac g x).ctx = f.ctx := rfl
@[simp] theorem Feed.setVac_vac (g : Gantry) (x : Filter) (f : Feed) : (f.setVac g x).vac = f.vac.set g x := rfl
@[simp] theorem Feed.setVac_orders (g : Gantry) (x : Filter) (f : Feed) : (f.setVac g x).orders = f.orders := rfl
@[simp] theorem Feed.setVac_stations (g : Gantry) (x : Filter) (f : Feed) :
    (f.setVac g x).stations = f.stations := rfl
@[simp] theorem Feed.setVac_blockReport (g : Gantry) (x : Filter) (f : Feed) :
    (f.setVac g x).blockReport = f.blockReport := rfl
@[simp] theorem Feed.setVac_notices (g : Gantry) (x : Filter) (f : Feed) : (f.setVac g x).notices = f.notices := rfl
@[simp] theorem Feed.setVac_events (g : Gantry) (x : Filter) (f : Feed) : (f.setVac g x).events = f.events := rfl
@[simp] theorem Feed.setVac_prod (g : Gantry) (x : Filter) (f : Feed) : (f.setVac g x).prod = f.prod := rfl
@[simp] theorem Feed.setVac_cons (g : Gantry) (x : Filter) (f : Feed) : (f.setVac g x).cons = f.cons := rfl
@[simp] theorem Feed.setVac_counts (g : Gantry) (x : Filter) (f : Feed) : (f.setVac g x).counts = f.counts := rfl
@[simp] theorem Feed.setVac_flags (g : Gantry) (x : Filter) (f : Feed) : (f.setVac g x).flags = f.flags := rfl

/-! ### Feed.setRail -/

@[simp] theorem Feed.setRail_part (t : Rail) (f : Feed) : (f.setRail t).part = f.part := rfl
@[simp] theorem Feed.setRail_cause (t : Rail) (f : Feed) : (f.setRail t).cause = f.cause := rfl
@[simp] theorem Feed.setRail_loadFault (t : Rail) (f : Feed) : (f.setRail t).loadFault = f.loadFault := rfl
@[simp] theorem Feed.setRail_time (t : Rail) (f : Feed) : (f.setRail t).time = f.time := rfl
@[simp] theorem Feed.setRail_cfg (t : Rail) (f : Feed) : (f.setRail t).cfg = f.cfg := rfl
@[simp] theorem Feed.setRail_rail (t : Rail) (f : Feed) : (f.setRail t).rail = t := rfl
@[simp] theorem Feed.setRail_ctx (t : Rail) (f : Feed) :
    (f.setRail t).ctx = Vector.ofFn fun g : Fin 2 =>
      if changedOf (other g) f.rail t then f.ctx[g].unblocked else f.ctx[g] := rfl
@[simp] theorem Feed.setRail_vac (t : Rail) (f : Feed) : (f.setRail t).vac = f.vac := rfl
@[simp] theorem Feed.setRail_orders (t : Rail) (f : Feed) : (f.setRail t).orders = f.orders := rfl
@[simp] theorem Feed.setRail_stations (t : Rail) (f : Feed) : (f.setRail t).stations = f.stations := rfl
@[simp] theorem Feed.setRail_blockReport (t : Rail) (f : Feed) : (f.setRail t).blockReport = f.blockReport := rfl
@[simp] theorem Feed.setRail_notices (t : Rail) (f : Feed) : (f.setRail t).notices = f.notices := rfl
@[simp] theorem Feed.setRail_events (t : Rail) (f : Feed) : (f.setRail t).events = f.events := rfl
@[simp] theorem Feed.setRail_prod (t : Rail) (f : Feed) : (f.setRail t).prod = f.prod := rfl
@[simp] theorem Feed.setRail_cons (t : Rail) (f : Feed) : (f.setRail t).cons = f.cons := rfl
@[simp] theorem Feed.setRail_counts (t : Rail) (f : Feed) : (f.setRail t).counts = f.counts := rfl
@[simp] theorem Feed.setRail_flags (t : Rail) (f : Feed) : (f.setRail t).flags = f.flags := rfl

/-! ### Raising an event, and halts -/

@[simp] theorem Feed.raise_part (c : EventCode) (n d : Nat) (f : Feed) : (f.raise c n d).part = f.part := by
  unfold Feed.raise; split <;> [rfl; split <;> rfl]
@[simp] theorem Feed.raise_cause (c : EventCode) (n d : Nat) (f : Feed) : (f.raise c n d).cause = f.cause := by
  unfold Feed.raise; split <;> [rfl; split <;> rfl]
@[simp] theorem Feed.raise_loadFault (c : EventCode) (n d : Nat) (f : Feed) : (f.raise c n d).loadFault = f.loadFault := by
  unfold Feed.raise; split <;> [rfl; split <;> rfl]
@[simp] theorem Feed.raise_time (c : EventCode) (n d : Nat) (f : Feed) : (f.raise c n d).time = f.time := by
  unfold Feed.raise; split <;> [rfl; split <;> rfl]
@[simp] theorem Feed.raise_cfg (c : EventCode) (n d : Nat) (f : Feed) : (f.raise c n d).cfg = f.cfg := by
  unfold Feed.raise; split <;> [rfl; split <;> rfl]
@[simp] theorem Feed.raise_rail (c : EventCode) (n d : Nat) (f : Feed) : (f.raise c n d).rail = f.rail := by
  unfold Feed.raise; split <;> [rfl; split <;> rfl]
@[simp] theorem Feed.raise_ctx (c : EventCode) (n d : Nat) (f : Feed) : (f.raise c n d).ctx = f.ctx := by
  unfold Feed.raise; split <;> [rfl; split <;> rfl]
@[simp] theorem Feed.raise_vac (c : EventCode) (n d : Nat) (f : Feed) : (f.raise c n d).vac = f.vac := by
  unfold Feed.raise; split <;> [rfl; split <;> rfl]
@[simp] theorem Feed.raise_orders (c : EventCode) (n d : Nat) (f : Feed) : (f.raise c n d).orders = f.orders := by
  unfold Feed.raise; split <;> [rfl; split <;> rfl]
@[simp] theorem Feed.raise_stations (c : EventCode) (n d : Nat) (f : Feed) : (f.raise c n d).stations = f.stations := by
  unfold Feed.raise; split <;> [rfl; split <;> rfl]
@[simp] theorem Feed.raise_blockReport (c : EventCode) (n d : Nat) (f : Feed) : (f.raise c n d).blockReport = f.blockReport := by
  unfold Feed.raise; split <;> [rfl; split <;> rfl]
@[simp] theorem Feed.raise_notices (c : EventCode) (n d : Nat) (f : Feed) : (f.raise c n d).notices = f.notices := by
  unfold Feed.raise; split <;> [rfl; split <;> rfl]
@[simp] theorem Feed.raise_prod (c : EventCode) (n d : Nat) (f : Feed) : (f.raise c n d).prod = f.prod := by
  unfold Feed.raise; split <;> [rfl; split <;> rfl]
@[simp] theorem Feed.raise_cons (c : EventCode) (n d : Nat) (f : Feed) : (f.raise c n d).cons = f.cons := by
  unfold Feed.raise; split <;> [rfl; split <;> rfl]

@[simp] theorem Feed.haltCtx_part (g : Gantry) (r : HaltReason) (b : Option BadMove) (f : Feed) :
    (f.haltCtx g r b).part = f.part := by simp [Feed.haltCtx]
@[simp] theorem Feed.furtherFault_part (g : Gantry) (r : HaltReason) (f : Feed) :
    (f.furtherFault g r).part = f.part := by simp [Feed.furtherFault]
@[simp] theorem Feed.fault_part (g : Gantry) (r : HaltReason) (f : Feed) : (f.fault g r).part = f.part := by
  unfold Feed.fault; split <;> simp
@[simp] theorem Feed.haltCtx_cause (g : Gantry) (r : HaltReason) (b : Option BadMove) (f : Feed) :
    (f.haltCtx g r b).cause = f.cause := by simp [Feed.haltCtx]
@[simp] theorem Feed.furtherFault_cause (g : Gantry) (r : HaltReason) (f : Feed) :
    (f.furtherFault g r).cause = f.cause := by simp [Feed.furtherFault]
@[simp] theorem Feed.fault_cause (g : Gantry) (r : HaltReason) (f : Feed) : (f.fault g r).cause = f.cause := by
  unfold Feed.fault; split <;> simp
@[simp] theorem Feed.haltCtx_loadFault (g : Gantry) (r : HaltReason) (b : Option BadMove) (f : Feed) :
    (f.haltCtx g r b).loadFault = f.loadFault := by simp [Feed.haltCtx]
@[simp] theorem Feed.furtherFault_loadFault (g : Gantry) (r : HaltReason) (f : Feed) :
    (f.furtherFault g r).loadFault = f.loadFault := by simp [Feed.furtherFault]
@[simp] theorem Feed.fault_loadFault (g : Gantry) (r : HaltReason) (f : Feed) : (f.fault g r).loadFault = f.loadFault := by
  unfold Feed.fault; split <;> simp
@[simp] theorem Feed.haltCtx_time (g : Gantry) (r : HaltReason) (b : Option BadMove) (f : Feed) :
    (f.haltCtx g r b).time = f.time := by simp [Feed.haltCtx]
@[simp] theorem Feed.furtherFault_time (g : Gantry) (r : HaltReason) (f : Feed) :
    (f.furtherFault g r).time = f.time := by simp [Feed.furtherFault]
@[simp] theorem Feed.fault_time (g : Gantry) (r : HaltReason) (f : Feed) : (f.fault g r).time = f.time := by
  unfold Feed.fault; split <;> simp
@[simp] theorem Feed.haltCtx_cfg (g : Gantry) (r : HaltReason) (b : Option BadMove) (f : Feed) :
    (f.haltCtx g r b).cfg = f.cfg := by simp [Feed.haltCtx]
@[simp] theorem Feed.furtherFault_cfg (g : Gantry) (r : HaltReason) (f : Feed) :
    (f.furtherFault g r).cfg = f.cfg := by simp [Feed.furtherFault]
@[simp] theorem Feed.fault_cfg (g : Gantry) (r : HaltReason) (f : Feed) : (f.fault g r).cfg = f.cfg := by
  unfold Feed.fault; split <;> simp
@[simp] theorem Feed.haltCtx_vac (g : Gantry) (r : HaltReason) (b : Option BadMove) (f : Feed) :
    (f.haltCtx g r b).vac = f.vac := by simp [Feed.haltCtx]
@[simp] theorem Feed.furtherFault_vac (g : Gantry) (r : HaltReason) (f : Feed) :
    (f.furtherFault g r).vac = f.vac := by simp [Feed.furtherFault]
@[simp] theorem Feed.fault_vac (g : Gantry) (r : HaltReason) (f : Feed) : (f.fault g r).vac = f.vac := by
  unfold Feed.fault; split <;> simp
@[simp] theorem Feed.haltCtx_orders (g : Gantry) (r : HaltReason) (b : Option BadMove) (f : Feed) :
    (f.haltCtx g r b).orders = f.orders := by simp [Feed.haltCtx]
@[simp] theorem Feed.furtherFault_orders (g : Gantry) (r : HaltReason) (f : Feed) :
    (f.furtherFault g r).orders = f.orders := by simp [Feed.furtherFault]
@[simp] theorem Feed.fault_orders (g : Gantry) (r : HaltReason) (f : Feed) : (f.fault g r).orders = f.orders := by
  unfold Feed.fault; split <;> simp
@[simp] theorem Feed.haltCtx_stations (g : Gantry) (r : HaltReason) (b : Option BadMove) (f : Feed) :
    (f.haltCtx g r b).stations = f.stations := by simp [Feed.haltCtx]
@[simp] theorem Feed.furtherFault_stations (g : Gantry) (r : HaltReason) (f : Feed) :
    (f.furtherFault g r).stations = f.stations := by simp [Feed.furtherFault]
@[simp] theorem Feed.fault_stations (g : Gantry) (r : HaltReason) (f : Feed) : (f.fault g r).stations = f.stations := by
  unfold Feed.fault; split <;> simp
@[simp] theorem Feed.haltCtx_blockReport (g : Gantry) (r : HaltReason) (b : Option BadMove) (f : Feed) :
    (f.haltCtx g r b).blockReport = f.blockReport := by simp [Feed.haltCtx]
@[simp] theorem Feed.furtherFault_blockReport (g : Gantry) (r : HaltReason) (f : Feed) :
    (f.furtherFault g r).blockReport = f.blockReport := by simp [Feed.furtherFault]
@[simp] theorem Feed.fault_blockReport (g : Gantry) (r : HaltReason) (f : Feed) : (f.fault g r).blockReport = f.blockReport := by
  unfold Feed.fault; split <;> simp
@[simp] theorem Feed.haltCtx_notices (g : Gantry) (r : HaltReason) (b : Option BadMove) (f : Feed) :
    (f.haltCtx g r b).notices = f.notices := by simp [Feed.haltCtx]
@[simp] theorem Feed.furtherFault_notices (g : Gantry) (r : HaltReason) (f : Feed) :
    (f.furtherFault g r).notices = f.notices := by simp [Feed.furtherFault]
@[simp] theorem Feed.fault_notices (g : Gantry) (r : HaltReason) (f : Feed) : (f.fault g r).notices = f.notices := by
  unfold Feed.fault; split <;> simp
@[simp] theorem Feed.haltCtx_prod (g : Gantry) (r : HaltReason) (b : Option BadMove) (f : Feed) :
    (f.haltCtx g r b).prod = f.prod := by simp [Feed.haltCtx]
@[simp] theorem Feed.furtherFault_prod (g : Gantry) (r : HaltReason) (f : Feed) :
    (f.furtherFault g r).prod = f.prod := by simp [Feed.furtherFault]
@[simp] theorem Feed.fault_prod (g : Gantry) (r : HaltReason) (f : Feed) : (f.fault g r).prod = f.prod := by
  unfold Feed.fault; split <;> simp
@[simp] theorem Feed.haltCtx_cons (g : Gantry) (r : HaltReason) (b : Option BadMove) (f : Feed) :
    (f.haltCtx g r b).cons = f.cons := by simp [Feed.haltCtx]
@[simp] theorem Feed.furtherFault_cons (g : Gantry) (r : HaltReason) (f : Feed) :
    (f.furtherFault g r).cons = f.cons := by simp [Feed.furtherFault]
@[simp] theorem Feed.fault_cons (g : Gantry) (r : HaltReason) (f : Feed) : (f.fault g r).cons = f.cons := by
  unfold Feed.fault; split <;> simp

@[simp] theorem Feed.haltCtx_rail (g : Gantry) (r : HaltReason) (b : Option BadMove) (f : Feed) :
    (f.haltCtx g r b).rail = unreserve f.rail g := by simp [Feed.haltCtx]

@[simp] theorem Feed.furtherFault_rail (g : Gantry) (r : HaltReason) (f : Feed) :
    (f.furtherFault g r).rail = f.rail := by simp [Feed.furtherFault]

end Sys2Proof.Machine
end

