-- ==== Sys2Proof/Laws/Bus.lean ====
section
/-! SUPPORT. How the upstream port routes a transaction presented to a free port: an owner's record is taken, a control
command reaches the mailbox, a burst of the status area is answered from the snapshot, and the rest is held. -/

namespace Sys2Proof.Machine

/-! ### Words with generated parity -/

@[simp] theorem parityOk_good (w : Word) : parityOk (PWord.good w) = true := by simp [parityOk, PWord.good]

@[simp] theorem dataOf_outWords (ws : List Word) : (outWords ws).map (·.data) = ws := by
  simp [outWords, PWord.good, Function.comp_def]

@[simp] theorem all_parityOk_outWords (ws : List Word) : (outWords ws).all parityOk = true := by
  simp [outWords]

@[simp] theorem length_outWords (ws : List Word) : (outWords ws).length = ws.length := by simp [outWords]

theorem eq_good_of_parityOk {p : PWord} (h : parityOk p = true) : PWord.good p.data = p := by
  cases p
  simp only [parityOk, beq_iff_eq] at h
  simp only [PWord.good, ← h]

/-- Words received with good parity go out as they came. -/
theorem outWords_data {ws : List PWord} (h : ∀ w ∈ ws, parityOk w = true) : outWords (ws.map (·.data)) = ws := by
  unfold outWords
  rw [List.map_map]
  exact (List.map_congr_left fun w hw => eq_good_of_parityOk (h w hw)).trans (List.map_id _)

/-! ### Decoding is untouched by what stands on the bus -/

/-- Where an address lies depends on the straps and the feed side only. -/
theorem State.areaAt_congr {s u : State} (hb : u.base = s.base) (hf : u.feed = s.feed) (a : Nat) :
    u.areaAt a = s.areaAt a := by
  unfold State.areaAt State.controlBase State.statusBase State.anchor
  rw [hb, hf]

/-- The route of a transaction depends on the straps and the feed side only. -/
theorem State.route_congr {s u : State} (hb : u.base = s.base) (hl : u.lcTag = s.lcTag) (hf : u.feed = s.feed)
    (t : Txn) : u.route t = s.route t := by
  have ha : ∀ a, u.areaAt a = s.areaAt a := State.areaAt_congr hb hf
  have ho : ∀ a, u.owner a = s.owner a := by
    intro a
    unfold State.owner
    rw [hl, hf]
  have hr : ∀ a, u.routeRead t a = s.routeRead t a := by
    intro a
    unfold State.routeRead
    rw [hf]
  have hw : ∀ a ws, u.routeWrite t a ws = s.routeWrite t a ws := by
    intro a ws
    unfold State.routeWrite
    rw [ho]
  unfold State.route State.breaksAlign State.alignArea State.wordAreas
  simp only [ha, hr, hw]

@[simp] theorem State.areaAt_unanswered (s : State) (a : Nat) : s.unanswered.areaAt a = s.areaAt a :=
  State.areaAt_congr rfl rfl a

@[simp] theorem State.route_unanswered (s : State) (t : Txn) : s.unanswered.route t = s.route t := by
  apply State.route_congr <;> rfl

@[simp] theorem State.boundNow_unanswered (s : State) : s.unanswered.boundNow = s.boundNow := rfl

theorem State.areaAt_inside {s : State} {addr : Addr} {n : Nat} {a : Option Area} (h : Inside s addr n a) :
    s.areaAt addr.toNat = a := by
  simpa using h.2.2.2.2 0 h.1

/-- A burst inside one area, or inside none, keeps to R140. -/
theorem State.breaksAlign_inside {s : State} {t : Txn} {a : Option Area} (h : Inside s t.addr t.op.len a) :
    s.breaksAlign t = false := by
  have h0 := State.areaAt_inside h
  have hw : ((s.wordAreas t).all fun x => decide (x = s.areaAt t.addr.toNat)) = true := by
    rw [List.all_eq_true]
    intro x hx
    obtain ⟨i, hi, rfl⟩ := List.mem_map.mp hx
    rw [decide_eq_true_eq, h0]
    exact h.2.2.2.2 i (List.mem_range.mp hi)
  obtain ⟨_, _, h4, htop, _⟩ := h
  have h1 : ¬2 ^ 24 < t.addr.toNat + 4 * t.op.len := Nat.not_lt.mpr htop
  unfold State.breaksAlign
  simp only [hw, h1, h4, ne_eq, not_true_eq_false, decide_false, Bool.or_self, Bool.not_true]

/-- The route of a transaction inside one area. -/
theorem State.route_inside {s : State} {t : Txn} {a : Area} (hp : t.addrParityOk = true)
    (h : Inside s t.addr t.op.len (some a)) :
    s.route t = match t.op with
      | .write ws => s.routeWrite t a ws
      | .read _ => s.routeRead t a := by
  unfold State.route
  rw [State.breaksAlign_inside h, State.areaAt_inside h, hp]
  rfl

/-- A transaction outside every area is forwarded raw (R139). -/
theorem State.route_unwatched {s : State} {t : Txn} (hp : t.addrParityOk = true)
    (h : Inside s t.addr t.op.len none) : s.route t = .raw := by
  unfold State.route
  rw [State.breaksAlign_inside h, State.areaAt_inside h, hp]
  rfl

/-- A transaction presented to a free port arrives (R147). -/
theorem State.present_free {s : State} (h : PortFree s) (t : Txn) :
    s.present t = s.unanswered.carry t (s.route t) := by
  obtain ⟨h1, h2, h3, h4⟩ := h
  unfold State.present State.arrive
  rw [h1, h2, h3, h4, State.route_unanswered]
  rfl

/-- An owner's record is taken (R141, R142). -/
theorem State.present_owner {s : State} {tag : MasterTag} {addr : Addr} {ws : List PWord} {a : Area}
    (h : OwnerRecord s tag addr ws a) :
    s.present (writeTxn tag addr ws) = s.unanswered.takeWrite (writeTxn tag addr ws) a (dataOf ws) := by
  obtain ⟨hf, ho, hl, h16, hin, hp⟩ := h
  have hin' : Inside s (writeTxn tag addr ws).addr (writeTxn tag addr ws).op.len (some a) := by
    simpa [writeTxn, TxnOp.len, hl] using hin
  rw [State.present_free hf, State.route_inside rfl hin']
  have hrec : (writeTxn tag addr ws).oneRecord = true := by
    simp [Txn.oneRecord, writeTxn, TxnOp.len, hl, h16]
  have hall : ws.all parityOk = true := List.all_eq_true.mpr hp
  have hroute : s.routeWrite (writeTxn tag addr ws) a ws = .take a (dataOf ws) := by
    have htag : ¬(writeTxn tag addr ws).tag ≠ tag := not_not.mpr rfl
    unfold State.routeWrite
    simp only [ho, hrec, hall, htag, if_false, Bool.not_true, Bool.and_false, Bool.false_eq_true]
  exact congrArg (fun r => s.unanswered.carry (writeTxn tag addr ws) r) hroute

/-- The area of the mailbox (R139, R169). -/
theorem State.areaAt_control {s : State} {x : Nat} (h1 : s.anchor + 384 ≤ x) (h2 : x < s.anchor + 512) :
    s.areaAt x = some .control := by
  unfold State.areaAt State.statusBase State.controlBase
  rw [if_neg (by omega), if_neg (by omega), if_pos (by omega)]

/-- The area of the status record (R139, R169). -/
theorem State.areaAt_status {s : State} {x : Nat} (h1 : s.anchor + 256 ≤ x) (h2 : x < s.anchor + 384) :
    s.areaAt x = some .status := by
  unfold State.areaAt State.statusBase State.controlBase
  rw [if_neg (by omega), if_pos (by omega)]

theorem State.anchor_le (s : State) : s.anchor ≤ 15 * 2 ^ 20 := by
  have := s.base.isLt
  unfold State.anchor
  omega

/-- A control command of the line computer reaches the mailbox (R156). -/
theorem State.present_control {s : State} {tag : MasterTag} {addr : Addr} (h : OwnerControl s tag addr)
    (code : BitVec 8) (r : ControlRec) :
    s.present (controlTxn tag addr code r) =
      s.unanswered.takeControl (controlTxn tag addr code r) (controlWords code r) := by
  obtain ⟨hf, ht, h16, h1, h2⟩ := h
  have hanchor : s.anchor % 2 ^ 20 = 0 := Nat.mul_mod_left _ _
  have hown : OwnerRecord s tag addr (outWords (controlWords code r)) .control := by
    refine ⟨hf, by rw [ht]; rfl, rfl, h16, ⟨by omega, by omega, by omega, ?_, ?_⟩, ?_⟩
    · have := s.anchor_le
      omega
    · intro i hi
      exact State.areaAt_control (by omega) (by omega)
    · exact List.all_eq_true.mp (all_parityOk_outWords (controlWords code r))
  exact (State.present_owner hown).trans (by rw [dataOf, dataOf_outWords]; rfl)

/-! ### The fields of a control record -/

theorem toNat_append_eq {n m : Nat} (x : BitVec n) (y : BitVec m) : (x ++ y).toNat = x.toNat * 2 ^ m + y.toNat := by
  rw [BitVec.toNat_append, ← Nat.shiftLeft_add_eq_or_of_lt y.isLt, Nat.shiftLeft_eq]

/-- What the part examines of a control record presented with a command code (R156, section 11.1). -/
theorem ControlFields.ofWords_control (code : BitVec 8) (r : ControlRec) :
    ControlFields.ofWords (controlWords code r) =
      ⟨.ofCode code.toNat, r.opA.toNat, if r.bGiven then some r.opB.toNat else none⟩ := by
  have h0 : wordAt (controlWords code r) 0 = r.opA ++ r.spare0 ++ code := rfl
  have h1 : wordAt (controlWords code r) 1 = BitVec.ofBool r.bGiven ++ r.spare1 ++ r.opB := rfl
  unfold ControlFields.ofWords field bit
  rw [h0, h1]
  have ha := r.opA.isLt
  have hs := r.spare0.isLt
  have hc := code.isLt
  have hb := r.opB.isLt
  have hs1 := r.spare1.isLt
  have e0 : (r.opA ++ r.spare0 ++ code).toNat = (r.opA.toNat * 2 ^ 8 + r.spare0.toNat) * 2 ^ 8 + code.toNat := by
    rw [toNat_append_eq, toNat_append_eq]
  have e1 : (BitVec.ofBool r.bGiven ++ r.spare1 ++ r.opB).toNat =
      ((BitVec.ofBool r.bGiven).toNat * 2 ^ 7 + r.spare1.toNat) * 2 ^ 24 + r.opB.toNat := by
    rw [toNat_append_eq, toNat_append_eq]
  have e2 : (BitVec.ofBool r.bGiven ++ r.spare1 ++ r.opB).getLsbD 31 = r.bGiven := by
    rw [← BitVec.testBit_toNat, e1, Nat.testBit_eq_decide_div_mod_eq]
    cases r.bGiven
    · simp only [BitVec.toNat_ofBool, Bool.toNat_false, decide_eq_false_iff_not]
      omega
    · simp only [BitVec.toNat_ofBool, Bool.toNat_true, decide_eq_true_eq]
      omega
  have f0 : (r.opA ++ r.spare0 ++ code).toNat >>> 0 % 2 ^ 8 = code.toNat := by
    rw [e0, Nat.shiftRight_zero]
    omega
  have f1 : (r.opA ++ r.spare0 ++ code).toNat >>> 16 % 2 ^ 16 = r.opA.toNat := by
    rw [e0, Nat.shiftRight_eq_div_pow]
    omega
  have f2 : (BitVec.ofBool r.bGiven ++ r.spare1 ++ r.opB).toNat >>> 0 % 2 ^ 24 = r.opB.toNat := by
    rw [e1, Nat.shiftRight_zero]
    omega
  simp only [f0, f1, f2, e2]

end Sys2Proof.Machine
end

