-- ==== Sys2Proof/Laws/Events.lean ====
section
/-! SUPPORT. What raising an event does, and that raising, writing and acknowledging events keep the ring's law. -/

namespace Sys2Proof.Machine

/-- Raising an event: nothing outside RUN, a lost event where the ring or the queue is full, else one more event
(R160). -/
theorem Feed.raise_cases (c : EventCode) (n d : Nat) (f : Feed) :
    (f.part ≠ .run ∧ f.raise c n d = f) ∨
    (f.part = .run ∧ (f.ringCap - 1 ≤ f.occupancy ∨ Config.queueCapacity ≤ f.events.length) ∧
      f.raise c n d = f.count .eventsLost) ∨
    (f.part = .run ∧ f.occupancy < f.ringCap - 1 ∧ f.events.length < Config.queueCapacity ∧
      f.raise c n d = { f with events := f.events ++ [⟨c, n, d, f.time⟩] }) := by
  unfold Feed.raise
  by_cases hp : f.part = .run
  · by_cases hfull : f.ringCap - 1 ≤ f.occupancy ∨ Config.queueCapacity ≤ f.events.length
    · exact .inr (.inl ⟨hp, hfull, by rw [if_neg (not_not.mpr hp), if_pos hfull]⟩)
    · have h := not_or.mp hfull
      exact .inr (.inr ⟨hp, Nat.not_le.mp h.1, Nat.not_le.mp h.2, by rw [if_neg (not_not.mpr hp), if_neg hfull]⟩)
  · exact .inl ⟨hp, if_pos hp⟩

theorem Feed.ringCap_pos (f : Feed) : 0 < f.ringCap := Nat.two_pow_pos _

/-- The law of the ring depends only on P, Q, the capacity and the queue. -/
theorem ringLaw_congr {f f' : Feed} (hp : f'.prod = f.prod) (hq : f'.cons = f.cons)
    (hc : f'.cfg.ringLog = f.cfg.ringLog) (he : f'.events = f.events) (h : RingLaw f) : RingLaw f' := by
  unfold RingLaw Feed.occupancy Feed.unacked Feed.ringCap at *
  rw [hp, hq, hc, he]
  exact h

theorem ringLaw_count {f : Feed} (c : Counter) (h : RingLaw f) : RingLaw (f.count c) :=
  ringLaw_congr rfl rfl rfl rfl h

/-- Raising an event keeps the law of the ring (R160, R163). -/
theorem ringLaw_raise {f : Feed} (c : EventCode) (n d : Nat) (h : RingLaw f) : RingLaw (f.raise c n d) := by
  rcases f.raise_cases c n d with ⟨_, he⟩ | ⟨_, _, he⟩ | ⟨_, ho, hq, he⟩
  · rw [he]
    exact h
  · rw [he]
    exact ringLaw_count _ h
  · rw [he]
    obtain ⟨h1, h2, _, _⟩ := h
    refine ⟨h1, h2, ?_, ?_⟩
    · simp only [Feed.occupancy, Feed.unacked, Feed.ringCap, List.length_append, List.length_singleton] at *
      omega
    · simp only [List.length_append, List.length_singleton]
      omega

/-- Unacknowledged events: what (P - Q) mod C is for slots of the ring (R159). -/
theorem Feed.unacked_eq {f : Feed} (hp : f.prod < f.ringCap) (hq : f.cons < f.ringCap) :
    f.unacked = if f.cons ≤ f.prod then f.prod - f.cons else f.prod + f.ringCap - f.cons := by
  unfold Feed.unacked
  split
  · rename_i h
    have : f.prod + f.ringCap - f.cons = (f.prod - f.cons) + f.ringCap := by omega
    rw [this, Nat.add_mod_right, Nat.mod_eq_of_lt (by omega)]
  · exact Nat.mod_eq_of_lt (by omega)

/-- The distance from Q to P round a ring of c slots falls in step with the queue when P advances. -/
theorem ring_advance {p q c n : Nat} (hp : p < c) (hq : q < c)
    (ho : (if q ≤ p then p - q else p + c - q) + (n + 1) ≤ c - 1) :
    (if q ≤ (p + 1) % c then (p + 1) % c - q else (p + 1) % c + c - q) + n ≤ c - 1 := by
  by_cases hw : p + 1 = c
  · have hm : (p + 1) % c = 0 := by rw [hw, Nat.mod_self]
    rw [hm]
    split_ifs at * <;> omega
  · have hm : (p + 1) % c = p + 1 := Nat.mod_eq_of_lt (by omega)
    rw [hm]
    split_ifs at * <;> omega

/-- A completed event write moves an event from queued to written (R160, R163). -/
theorem ringLaw_written {f : Feed} {e : Event} {rest : List Event} (he : f.events = e :: rest) (h : RingLaw f) :
    RingLaw { f with events := rest, prod := (f.prod + 1) % f.ringCap } := by
  obtain ⟨hp, hq, ho, hl⟩ := h
  have hu := Feed.unacked_eq hp hq
  have hu' := Feed.unacked_eq (f := { f with events := rest, prod := (f.prod + 1) % f.ringCap })
    (Nat.mod_lt _ f.ringCap_pos) hq
  unfold Feed.occupancy at ho
  rw [he, List.length_cons, hu] at ho
  rw [he, List.length_cons] at hl
  refine ⟨Nat.mod_lt _ f.ringCap_pos, hq, ?_, by simp only; omega⟩
  unfold Feed.occupancy
  rw [hu']
  exact ring_advance hp hq ho

/-- An event that leaves the queue without being written lowers the occupancy (R160, R163). -/
theorem ringLaw_dropped {f : Feed} {e : Event} {rest : List Event} (he : f.events = e :: rest) (h : RingLaw f) :
    RingLaw { f with events := rest } := by
  obtain ⟨hp, hq, ho, hl⟩ := h
  simp only [Feed.occupancy, he, List.length_cons] at ho hl
  refine ⟨hp, hq, ?_, by simp only; omega⟩
  simp only [Feed.occupancy, Feed.unacked, Feed.ringCap] at *
  omega

/-- An acknowledgement up to the producer index keeps the law of the ring (R161, R163). -/
theorem ringLaw_acked {f : Feed} {a : Nat} (ha : a < f.ringCap) (hle : (a + f.ringCap - f.cons) % f.ringCap ≤ f.unacked)
    (h : RingLaw f) : RingLaw { f with cons := a } := by
  obtain ⟨hp, hq, ho, hl⟩ := h
  have hu := Feed.unacked_eq hp hq
  have hu' := Feed.unacked_eq (f := { f with cons := a }) hp ha
  have hd := Feed.unacked_eq (f := { f with prod := a }) ha hq
  refine ⟨hp, ha, ?_, hl⟩
  simp only [Feed.occupancy, Feed.unacked, Feed.ringCap] at *
  split_ifs at * <;> omega

end Sys2Proof.Machine
end

