-- ==== Sys2Proof/Laws/Exec.lean ====
section
/-! SUPPORT. Every command answers a next state, and the shared operations of the bus path leave the queue alone. -/

namespace Sys2Proof.Machine

/-- Every meaning ends in `done`. -/
theorem exec_eq_done (c : Instr) (s : State) : ∃ u, exec c s = done u := by
  cases c <;> first
    | exact ⟨_, rfl⟩
    | (simp only [exec, execVacRawChange, execPresentRawChange, execVacFall, execVacRise, execPresentRise,
        execPresentFall, execMoveTimeout, execLandingTimeout, execGuardExpiry]
       split <;> exact ⟨_, rfl⟩)

/-! ### Memory's answers -/

/-- An answer to an operation that its bound has ended: memory and the port follow, and nothing else (R148, R151). -/
theorem State.answered_late {s : State} {o : PortOp} {p : OpKind → Bool} {a : MemAnswer}
    {next : PortOp → State → State} (h : s.bus.port = some o) (hp : p o.kind = true) (hd : o.discard = true) :
    s.answered p a next = s.endOp o a := by
  simp [State.answered, State.opOf, h, hp, hd]

/-- An answer to an operation whose bound has not ended it. -/
theorem State.answered_live {s : State} {o : PortOp} {p : OpKind → Bool} {a : MemAnswer}
    {next : PortOp → State → State} (h : s.bus.port = some o) (hp : p o.kind = true) (hd : o.discard = false) :
    s.answered p a next = next o (s.endOp o a) := by
  simp [State.answered, State.opOf, h, hp, hd]

/-- A grant counts no more than PASSED_PARITY, and for good words not even that (R145). -/
theorem Feed.passParity_good {ws : List PWord} (h : ∀ w ∈ ws, parityOk w = true) (f : Feed) : f.passParity ws = f := by
  unfold Feed.passParity
  rw [if_pos (List.all_eq_true.mpr h)]

theorem Feed.passParity_bad {ws : List PWord} (h : ∃ w ∈ ws, parityOk w = false) (f : Feed) :
    f.passParity ws = f.count .passedParity := by
  unfold Feed.passParity
  rw [if_neg (by simpa using h)]

/-! ### A fall of VAC that is due at a CLEAR_HALT -/

/-- When row 1 of R128 applies. -/
theorem Feed.fallDue_iff (g : Gantry) (f : Feed) : f.fallDue g = true ↔
    f.ctx[g].carry.isSome = true ∧ (∀ m, f.ctx[g].flight = some m → m.kind = .travel) ∧ f.vac[g].level = true ∧
      ∃ t0, f.vac[g].since = some t0 ∧ f.cfg.filterTime ≤ (f.time - t0).toNat := by
  unfold Feed.fallDue Feed.vacOf Feed.filterDone gripInFlight elapsed
  simp only [Bool.and_eq_true, Bool.not_eq_true', and_assoc]
  refine and_congr Iff.rfl (and_congr ?_ (and_congr Iff.rfl ?_))
  · cases f.ctx[g].flight <;> simp
  · cases f.vac[g].since <;> simp

@[simp] theorem Feed.settleFall_ctx (g : Gantry) (f : Feed) : (f.settleFall g).ctx = f.ctx := by
  unfold Feed.settleFall; split <;> rfl

@[simp] theorem Feed.settleFall_cfg (g : Gantry) (f : Feed) : (f.settleFall g).cfg = f.cfg := by
  unfold Feed.settleFall; split <;> rfl

@[simp] theorem Feed.settleFall_orders (g : Gantry) (f : Feed) : (f.settleFall g).orders = f.orders := by
  unfold Feed.settleFall; split <;> rfl

@[simp] theorem Feed.settleFall_rail (g : Gantry) (f : Feed) : (f.settleFall g).rail = f.rail := by
  unfold Feed.settleFall; split <;> rfl

@[simp] theorem Feed.settleFall_stations (g : Gantry) (f : Feed) : (f.settleFall g).stations = f.stations := by
  unfold Feed.settleFall; split <;> rfl

/-! ### The queue -/

@[simp] theorem State.grant_pending (s : State) : s.grant.pending = s.pending := by
  unfold State.grant; split_ifs <;> [rfl; (split <;> [(split <;> rfl); rfl])]

@[simp] theorem State.startLoad_pending (b : Bool) (s : State) : (s.startLoad b).pending = s.pending := by
  unfold State.startLoad; split <;> rfl

@[simp] theorem State.refuseWindow_pending (t : Txn) (w : Refuse) (a : Area) (s : State) :
    (s.refuseWindow t w a).pending = s.pending := rfl

@[simp] theorem State.takeOrder_pending (t : Txn) (ws : List Word) (s : State) :
    (s.takeOrder t ws).pending = s.pending := by
  unfold State.takeOrder; split <;> rfl

@[simp] theorem State.takeControl_pending (t : Txn) (ws : List Word) (s : State) :
    (s.takeControl t ws).pending = s.pending := by
  unfold State.takeControl; split <;> simp

@[simp] theorem State.takeWrite_pending (t : Txn) (a : Area) (ws : List Word) (s : State) :
    (s.takeWrite t a ws).pending = s.pending := by
  cases a <;> simp [State.takeWrite, State.takeCompletion, State.takeReport]

@[simp] theorem State.readStatus_pending (t : Txn) (s : State) : (s.readStatus t).pending = s.pending := by
  unfold State.readStatus; simp only; split <;> rfl

@[simp] theorem State.arrive_pending (t : Txn) (s : State) : (s.arrive t).pending = s.pending := by
  unfold State.arrive State.carry
  split <;> simp [State.refuseAddrParity, State.refuseAlign]
  split <;> rfl

@[simp] theorem State.present_pending (t : Txn) (s : State) : (s.present t).pending = s.pending := by
  unfold State.present; split_ifs <;> simp

@[simp] theorem State.arriveNext_pending (s : State) : s.arriveNext.pending = s.pending := by
  unfold State.arriveNext; split <;> simp

@[simp] theorem State.memAfter_pending (o : PortOp) (a : MemAnswer) (s : State) :
    (s.memAfter o a).pending = s.pending := by
  unfold State.memAfter; split <;> [rfl; rfl; split <;> rfl]

@[simp] theorem State.endOp_pending (o : PortOp) (a : MemAnswer) (s : State) :
    (s.endOp o a).pending = s.pending := by simp [State.endOp]

@[simp] theorem State.closePosted_pending (b : Bool) (s : State) : (s.closePosted b).pending = s.pending := by
  unfold State.closePosted; split <;> simp only
  split <;> simp

/-- An answer taken keeps the queue, if what it leads to does. -/
theorem State.answered_pending (p : OpKind → Bool) (a : MemAnswer) (next : PortOp → State → State)
    (h : ∀ o s, (next o s).pending = s.pending) (s : State) : (s.answered p a next).pending = s.pending := by
  unfold State.answered; split <;> [rfl; split <;> simp [h]]

end Sys2Proof.Machine
end

