-- ==== Sys2Proof/Laws/Fields.lean ====
section
/-! SUPPORT. What reading a bit field gives after a field of the same word was set: the value set, cut to the field's
width, or what stood there before. `simp [pack]` reads any field of a packed word through them. -/

namespace Sys2Proof.Machine

@[simp] theorem field_zero (lo n : Nat) : field 0 lo n = 0 := by simp [field]

theorem testBit_field (w : Word) (lo n i : Nat) :
    (field w lo n).testBit i = (decide (i < n) && w.getLsbD (lo + i)) := by
  unfold field
  rw [Nat.testBit_mod_two_pow, Nat.testBit_shiftRight, BitVec.testBit_toNat]

theorem getLsbD_fieldMask {lo n : Nat} (h : lo + n ≤ 32) (i : Nat) :
    (fieldMask lo n).getLsbD i = decide (lo ≤ i ∧ i < lo + n) := by
  unfold fieldMask
  rw [BitVec.getLsbD_shiftLeft, BitVec.getLsbD_ofNat, Nat.testBit_two_pow_sub_one, Bool.eq_iff_iff]
  simp only [Bool.and_eq_true, Bool.not_eq_true', decide_eq_true_eq, decide_eq_false_iff_not]
  omega

theorem getLsbD_setField (w : Word) {lo n : Nat} (v : Nat) (h : lo + n ≤ 32) (i : Nat) :
    (setField w lo n v).getLsbD i = if lo ≤ i ∧ i < lo + n then v.testBit (i - lo) else w.getLsbD i := by
  unfold setField
  rw [BitVec.getLsbD_or, BitVec.getLsbD_and, BitVec.getLsbD_and, BitVec.getLsbD_not, getLsbD_fieldMask h,
    BitVec.getLsbD_shiftLeft, BitVec.getLsbD_ofNat]
  by_cases h1 : lo ≤ i ∧ i < lo + n
  · have h2 : i < 32 := by omega
    have h3 : i - lo < 32 := by omega
    have h4 : ¬i < lo := by omega
    simp [h1, h2, h3, h4]
  · by_cases h2 : i < 32
    · simp [h1, h2]
    · rw [BitVec.getLsbD_of_ge w i (by omega)]
      simp [h1]

/-- The field that was set (R183). -/
@[simp] theorem field_setField_same (w : Word) {lo n : Nat} (v : Nat) (h : lo + n ≤ 32) :
    field (setField w lo n v) lo n = v % 2 ^ n := by
  apply Nat.eq_of_testBit_eq
  intro i
  rw [testBit_field, Nat.testBit_mod_two_pow, getLsbD_setField w v h]
  by_cases hi : i < n <;> simp [hi]

/-- "A stamp changes only the bits of its own field" (R183). -/
@[simp] theorem field_setField_apart (w : Word) {lo n lo' n' : Nat} (v : Nat) (h : lo + n ≤ 32)
    (ha : lo' + n' ≤ lo ∨ lo + n ≤ lo') : field (setField w lo n v) lo' n' = field w lo' n' := by
  apply Nat.eq_of_testBit_eq
  intro i
  rw [testBit_field, testBit_field, getLsbD_setField w v h]
  by_cases hi : i < n'
  · rw [if_neg (by omega)]
  · simp [hi]

end Sys2Proof.Machine
end

