-- ==== Sys2Proof/Laws/Memory.lean ====
section
/-! SUPPORT. Reads after writes of job memory, and that every memory operation keeps the canonical form. -/

namespace Sys2Proof.Machine

variable {α : Type} [DecidableEq α]

/-- What stands at a key after a store there. -/
theorem lookupAt_storeAt_same (d : α) (k : Nat) (v : α) (l : List (Nat × α)) (h : canonical d l = true) :
    lookupAt d (storeAt d k v l) k = v := by
  induction l with
  | nil => by_cases hv : v = d <;> simp [storeAt, lookupAt, hv]
  | cons e rest ih =>
    obtain ⟨a, w⟩ := e
    simp only [canonical, Bool.and_eq_true, decide_eq_true_eq, List.all_eq_true] at h
    obtain ⟨⟨_, hall⟩, hrest⟩ := h
    have absent : ∀ m : List (Nat × α), (∀ e ∈ m, k < e.1) → lookupAt d m k = d := by
      intro m hm
      induction m with
      | nil => rfl
      | cons e m ihm =>
        have h1 := hm e (List.mem_cons_self ..)
        rw [lookupAt, if_neg (by omega)]
        exact ihm fun e he => hm e (List.mem_cons_of_mem _ he)
    unfold storeAt
    split
    · rename_i hk
      split
      · rename_i hv
        rw [lookupAt, if_neg (by omega), hv]
        exact absent rest fun e he => Nat.lt_trans hk (hall e he)
      · simp [lookupAt]
    · split
      · rename_i hk
        split
        · rename_i hv
          rw [hv]
          exact absent rest fun e he => by rw [hk]; exact hall e he
        · simp [lookupAt]
      · rename_i hk1 hk2
        rw [lookupAt, if_neg (fun hc => hk2 hc.symm)]
        exact ih hrest

/-- What stands at every other key after a store. -/
theorem lookupAt_storeAt_other (d : α) {k j : Nat} (v : α) (l : List (Nat × α)) (h : j ≠ k) :
    lookupAt d (storeAt d k v l) j = lookupAt d l j := by
  induction l with
  | nil => by_cases hv : v = d <;> simp [storeAt, lookupAt, hv, Ne.symm h]
  | cons e rest ih =>
    obtain ⟨a, w⟩ := e
    unfold storeAt
    split
    · split
      · rfl
      · rw [lookupAt, if_neg (Ne.symm h)]
    · split
      · rename_i hk
        split
        · rw [lookupAt, if_neg (by omega)]
        · rw [lookupAt, lookupAt, if_neg (Ne.symm h), if_neg (by omega)]
      · rw [lookupAt, lookupAt, ih]

/-- Keys of a stored list are the new key or old keys. -/
theorem mem_storeAt {d : α} {k : Nat} {v : α} {l : List (Nat × α)} {e : Nat × α} (h : e ∈ storeAt d k v l) :
    e.1 = k ∨ e ∈ l := by
  induction l with
  | nil =>
    unfold storeAt at h
    split at h
    · simp at h
    · simp only [List.mem_singleton] at h
      simp [h]
  | cons x rest ih =>
    obtain ⟨a, w⟩ := x
    unfold storeAt at h
    split at h
    · split at h
      · exact .inr h
      · rcases List.mem_cons.mp h with h | h
        · simp [h]
        · exact .inr h
    · split at h
      · split at h
        · exact .inr (List.mem_cons_of_mem _ h)
        · rcases List.mem_cons.mp h with h | h
          · simp [h]
          · exact .inr (List.mem_cons_of_mem _ h)
      · rcases List.mem_cons.mp h with h | h
        · exact .inr (h ▸ List.mem_cons_self ..)
        · rcases ih h with h | h
          · exact .inl h
          · exact .inr (List.mem_cons_of_mem _ h)

/-- A store keeps the canonical form. -/
theorem canonical_storeAt (d : α) (k : Nat) (v : α) (l : List (Nat × α)) (h : canonical d l = true) :
    canonical d (storeAt d k v l) = true := by
  induction l with
  | nil => by_cases hv : v = d <;> simp [storeAt, canonical, hv]
  | cons e rest ih =>
    obtain ⟨a, w⟩ := e
    have h' := h
    simp only [canonical, Bool.and_eq_true, decide_eq_true_eq, List.all_eq_true] at h
    obtain ⟨⟨hw, hall⟩, hrest⟩ := h
    unfold storeAt
    split
    · rename_i hk
      split
      · exact h'
      · rename_i hv
        rw [canonical]
        simp only [Bool.and_eq_true, decide_eq_true_eq, List.all_eq_true]
        refine ⟨⟨hv, fun e he => ?_⟩, h'⟩
        rcases List.mem_cons.mp he with rfl | he
        · exact hk
        · exact Nat.lt_trans hk (hall e he)
    · split
      · rename_i hk
        split
        · exact hrest
        · rename_i hv
          simp only [canonical, Bool.and_eq_true, decide_eq_true_eq, List.all_eq_true]
          exact ⟨⟨hv, fun e he => hk ▸ hall e he⟩, hrest⟩
      · rename_i hk1 hk2
        simp only [canonical, Bool.and_eq_true, decide_eq_true_eq, List.all_eq_true]
        refine ⟨⟨hw, fun e he => ?_⟩, ih hrest⟩
        rcases mem_storeAt he with he | he
        · omega
        · exact hall e he

/-! ### Job memory -/

theorem Memory.wf_iff (m : Memory) :
    m.wf = true ↔ canonical unlistedByte m.bytes = true ∧ canonical false m.badParity = true := by
  simp [Memory.wf]

/-- Storing a word keeps the canonical form. -/
theorem Memory.wf_writeWord {m : Memory} (a : Nat) (p : PWord) (h : m.wf = true) : (m.writeWord a p).wf = true := by
  obtain ⟨h1, h2⟩ := m.wf_iff.mp h
  exact (Memory.wf_iff _).mpr
    ⟨canonical_storeAt _ _ _ _ (canonical_storeAt _ _ _ _ (canonical_storeAt _ _ _ _ (canonical_storeAt _ _ _ _ h1))),
      canonical_storeAt _ _ _ _ h2⟩

theorem Memory.wf_writeWords {m : Memory} (a : Nat) (ps : List PWord) (h : m.wf = true) :
    (m.writeWords a ps).wf = true := by
  induction ps generalizing m a with
  | nil => exact h
  | cons p ps ih => exact ih (a + 4) (wf_writeWord a p h)

theorem Memory.wf_abandonWords {m : Memory} (n i a : Nat) (ps : List PWord) (h : m.wf = true) :
    (m.abandonWords n i a ps).wf = true := by
  induction ps generalizing m i a with
  | nil => exact h
  | cons p ps ih =>
    rw [Memory.abandonWords]
    split
    · exact ih _ _ (wf_writeWord a p h)
    · exact ih _ _ h

theorem State.reset_mem_wf : State.reset.mem.wf = true := by decide

/-- The byte at an address of a stored word is the word's byte. -/
theorem Memory.readByte_writeWord_in {m : Memory} (h : m.wf = true) (a : Nat) (p : PWord) {j : Nat} (hj : j < 4) :
    (m.writeWord a p).readByte (a + j) = byteOf p.data j := by
  obtain ⟨h1, _⟩ := m.wf_iff.mp h
  have c0 := canonical_storeAt unlistedByte a (byteOf p.data 0) _ h1
  have c1 := canonical_storeAt unlistedByte (a + 1) (byteOf p.data 1) _ c0
  have c2 := canonical_storeAt unlistedByte (a + 2) (byteOf p.data 2) _ c1
  unfold Memory.readByte Memory.writeWord
  have hcases : j = 0 ∨ j = 1 ∨ j = 2 ∨ j = 3 := by omega
  rcases hcases with rfl | rfl | rfl | rfl
  · rw [lookupAt_storeAt_other _ _ _ (by omega), lookupAt_storeAt_other _ _ _ (by omega),
      lookupAt_storeAt_other _ _ _ (by omega), Nat.add_zero, lookupAt_storeAt_same _ _ _ _ h1]
  · rw [lookupAt_storeAt_other _ _ _ (by omega), lookupAt_storeAt_other _ _ _ (by omega),
      lookupAt_storeAt_same _ _ _ _ c0]
  · rw [lookupAt_storeAt_other _ _ _ (by omega), lookupAt_storeAt_same _ _ _ _ c1]
  · rw [lookupAt_storeAt_same _ _ _ _ c2]

/-- Every byte outside a stored word is as before. -/
theorem Memory.readByte_writeWord_out (m : Memory) (a : Nat) (p : PWord) {b : Nat} (hb : b < a ∨ a + 4 ≤ b) :
    (m.writeWord a p).readByte b = m.readByte b := by
  unfold Memory.readByte Memory.writeWord
  rw [lookupAt_storeAt_other _ _ _ (by omega), lookupAt_storeAt_other _ _ _ (by omega),
    lookupAt_storeAt_other _ _ _ (by omega), lookupAt_storeAt_other _ _ _ (by omega)]

/-- Every byte outside stored words is as before. -/
theorem Memory.readByte_writeWords_out (m : Memory) (a : Nat) (ps : List PWord) {b : Nat}
    (hb : b < a ∨ a + 4 * ps.length ≤ b) : (m.writeWords a ps).readByte b = m.readByte b := by
  induction ps generalizing m a with
  | nil => rfl
  | cons p ps ih =>
    rw [List.length_cons] at hb
    rw [Memory.writeWords, ih _ _ (by omega), readByte_writeWord_out _ _ _ (by omega)]

/-- A write abandoned by RESET_N leaves every byte outside its words, whichever of them landed (R154). -/
theorem Memory.readByte_abandonWords_out (m : Memory) (n i a : Nat) (ps : List PWord) {b : Nat}
    (hb : b < a ∨ a + 4 * ps.length ≤ b) : (m.abandonWords n i a ps).readByte b = m.readByte b := by
  induction ps generalizing m i a with
  | nil => rfl
  | cons p ps ih =>
    rw [List.length_cons] at hb
    unfold Memory.abandonWords
    rw [ih _ _ _ (by omega)]
    split
    · exact Memory.readByte_writeWord_out _ _ _ (by omega)
    · rfl

/-- The four bytes of a word, put together again. -/
theorem bytes_word (w : Word) : byteOf w 3 ++ byteOf w 2 ++ byteOf w 1 ++ byteOf w 0 = w := by
  unfold byteOf
  ext i hi
  simp only [BitVec.getElem_append, BitVec.getElem_extractLsb']
  split
  · simp only [Nat.mul_zero, Nat.zero_add]
    exact BitVec.getLsbD_eq_getElem hi
  · split
    · rw [← BitVec.getLsbD_eq_getElem hi]
      congr 1
      omega
    · split
      · rw [← BitVec.getLsbD_eq_getElem hi]
        congr 1
        omega
      · rw [← BitVec.getLsbD_eq_getElem hi]
        congr 1
        omega

/-- A word reads back as it was stored, with the parity bit it came with. -/
theorem Memory.readWord_writeWord {m : Memory} (h : m.wf = true) (a : Nat) (p : PWord) :
    (m.writeWord a p).readWord a = p := by
  have hd : (m.writeWord a p).readData a = p.data := by
    unfold Memory.readData
    rw [readByte_writeWord_in h a p (j := 3) (by omega), readByte_writeWord_in h a p (j := 2) (by omega),
      readByte_writeWord_in h a p (j := 1) (by omega)]
    have h0 := readByte_writeWord_in h a p (j := 0) (by omega)
    rw [Nat.add_zero] at h0
    rw [h0, bytes_word]
  have hb : (m.writeWord a p).badAt a = !parityOk p := lookupAt_storeAt_same _ _ _ _ (m.wf_iff.mp h).2
  unfold Memory.readWord
  rw [hd, hb]
  obtain ⟨data, par⟩ := p
  simp only [parityOk, PWord.mk.injEq, true_and]
  cases par <;> cases parityBit data <;> rfl

end Sys2Proof.Machine
end

