-- ==== Sys2Proof/Laws/Rail.lean ====
section
/-! SUPPORT. What each request to the rail claim table does, cell by cell, and that each keeps the law of the rail. -/

namespace Sys2Proof.Machine

/-! ### Cells -/

theorem cellAt_of_lt {t : Rail} {i : Nat} (h : i < 64) : cellAt t i = t[i] := by simp [cellAt, h]

/-- An index beyond the 64 cells is FREE (R2). -/
theorem cellAt_of_ge {t : Rail} {i : Nat} (h : 64 ≤ i) : cellAt t i = .free := by
  simp [cellAt, Nat.not_lt.mpr h]

theorem lt_of_cellAt_ne_free {t : Rail} {i : Nat} (h : cellAt t i ≠ .free) : i < 64 := by
  by_contra hc
  exact h (cellAt_of_ge (Nat.not_lt.mp hc))

theorem lt_of_held {t : Rail} {g : Gantry} {i : Nat} (h : cellAt t i = .held g) : i < 64 :=
  lt_of_cellAt_ne_free (t := t) (by simp [h])

theorem cellAt_mapCells (t : Rail) (f : Nat → CellState → CellState) {i : Nat} (h : i < 64) :
    cellAt (mapCells t f) i = f i (cellAt t i) := by
  simp [cellAt, mapCells, h]

@[simp] theorem cellAt_freeRail (i : Nat) : cellAt freeRail i = .free := by
  by_cases h : i < 64 <;> simp [cellAt, freeRail, h]

theorem Span.has_iff (r : Span) (i : Nat) : r.has i = true ↔ r.west ≤ i ∧ i ≤ r.east := by simp [Span.has]

@[simp] theorem isHeld_iff (g : Gantry) (c : CellState) : isHeld g c = true ↔ c = .held g := by simp [isHeld]

theorem other_ne (g : Gantry) : other g ≠ g := by fin_cases g <;> decide

@[simp] theorem other_zero : other 0 = 1 := by decide

@[simp] theorem other_one : other 1 = 0 := by decide

theorem gantry_cases (g : Gantry) : g = 0 ∨ g = 1 := by fin_cases g <;> simp

/-! ### The westernmost and easternmost cell -/

theorem westmost_none {t : Rail} {p : CellState → Bool} (h : westmost t p = none) {i : Nat} (hi : i < 64) :
    p (cellAt t i) = false := by
  have := List.find?_eq_none.mp h i (List.mem_range.mpr hi)
  simpa using this

theorem eastmost_none {t : Rail} {p : CellState → Bool} (h : eastmost t p = none) {i : Nat} (hi : i < 64) :
    p (cellAt t i) = false := by
  have := List.find?_eq_none.mp h i (List.mem_reverse.mpr (List.mem_range.mpr hi))
  simpa using this

/-- A search of the indices 0 to n - 1 from the west finds the first. -/
theorem find_range_some {p : Nat → Bool} {n w : Nat} (h : (List.range n).find? p = some w) :
    w < n ∧ p w = true ∧ ∀ i < w, p i = false := by
  rw [List.find?_range_eq_some] at h
  exact ⟨List.mem_range.mp h.2.1, h.1, fun i hi => by simpa using h.2.2 i hi⟩

/-- A search of the indices 0 to n - 1 from the east finds the last. -/
theorem find_range_reverse_some {p : Nat → Bool} {n e : Nat} (h : (List.range n).reverse.find? p = some e) :
    e < n ∧ p e = true ∧ ∀ i, e < i → i < n → p i = false := by
  induction n with
  | zero => simp at h
  | succ n ih =>
    rw [List.range_succ, List.reverse_append] at h
    simp only [List.reverse_cons, List.reverse_nil, List.nil_append, List.singleton_append, List.find?_cons] at h
    cases hp : p n with
    | true =>
      simp only [hp, Option.some.injEq] at h
      subst h
      exact ⟨Nat.lt_succ_self _, hp, fun i h1 h2 => absurd h2 (by omega)⟩
    | false =>
      simp only [hp] at h
      obtain ⟨h1, h2, h3⟩ := ih h
      refine ⟨by omega, h2, fun i hi hn => ?_⟩
      by_cases hin : i = n
      · exact hin ▸ hp
      · exact h3 i hi (by omega)

theorem westmost_some {t : Rail} {p : CellState → Bool} {w : Nat} (h : westmost t p = some w) :
    w < 64 ∧ p (cellAt t w) = true ∧ ∀ i < w, p (cellAt t i) = false := find_range_some h

theorem eastmost_some {t : Rail} {p : CellState → Bool} {e : Nat} (h : eastmost t p = some e) :
    e < 64 ∧ p (cellAt t e) = true ∧ ∀ i, e < i → i < 64 → p (cellAt t i) = false := find_range_reverse_some h

/-- The run the part answers for a gantry is the run it holds (R20). -/
theorem heldRun_of_holdsRun {t : Rail} {g : Gantry} {r : Span} (h : HoldsRun t g r) : heldRun t g = some r := by
  obtain ⟨h1, h2, h3⟩ := h
  have hw : cellAt t r.west = .held g := (h3 _).mpr ((r.has_iff _).mpr ⟨le_refl _, h1⟩)
  have he : cellAt t r.east = .held g := (h3 _).mpr ((r.has_iff _).mpr ⟨h1, le_refl _⟩)
  have ends : ∀ i, isHeld g (cellAt t i) = true → r.west ≤ i ∧ i ≤ r.east := fun i hi =>
    (r.has_iff i).mp ((h3 i).mp ((isHeld_iff g _).mp hi))
  unfold heldRun
  cases hwm : westmost t (isHeld g) with
  | none => exact absurd (westmost_none hwm (i := r.west) (by omega)) (by simp [hw])
  | some w =>
    cases hem : eastmost t (isHeld g) with
    | none => exact absurd (eastmost_none hem (i := r.east) h2) (by simp [he])
    | some e =>
      obtain ⟨_, hw2, hw3⟩ := westmost_some hwm
      obtain ⟨_, he2, he3⟩ := eastmost_some hem
      have a1 : ¬r.west < w := fun hl => absurd (hw3 _ hl) (by simp [hw])
      have a2 : ¬e < r.east := fun hl => absurd (he3 _ hl h2) (by simp [he])
      have b1 := ends w hw2
      have b2 := ends e he2
      have e1 : w = r.west := by omega
      have e2 : e = r.east := by omega
      rw [e1, e2]

theorem heldRun_of_holdsNone {t : Rail} {g : Gantry} (h : HoldsNone t g) : heldRun t g = none := by
  unfold heldRun
  cases hwm : westmost t (isHeld g) with
  | none => rfl
  | some w => exact absurd ((isHeld_iff g _).mp (westmost_some hwm).2.1) (h w)

/-- CROSSING seen from gantry 0: at or east of a cell HELD by gantry 1 (R8). -/
theorem crossing_zero_iff (t : Rail) (i : Nat) : crossing t 0 i = true ↔ ∃ j ≤ i, cellAt t j = .held 1 := by
  simp only [crossing, if_true]
  cases h : westmost t (isHeld 1) with
  | none =>
    simp only [Bool.false_eq_true, false_iff, not_exists, not_and]
    intro j _ hj
    have := westmost_none h (lt_of_held hj)
    rw [hj] at this
    exact absurd this (by decide)
  | some w =>
    obtain ⟨_, hw, hmin⟩ := westmost_some h
    simp only [decide_eq_true_eq]
    refine ⟨fun hi => ⟨w, hi, (isHeld_iff _ _).mp hw⟩, fun ⟨j, hj, hc⟩ => ?_⟩
    by_contra hlt
    have := hmin j (by omega)
    rw [hc] at this
    exact absurd this (by decide)

/-- CROSSING seen from gantry 1: at or west of a cell HELD by gantry 0 (R8). -/
theorem crossing_one_iff (t : Rail) (i : Nat) : crossing t 1 i = true ↔ ∃ j ≥ i, cellAt t j = .held 0 := by
  have h10 : ¬((1 : Gantry) = 0) := by decide
  simp only [crossing, if_neg h10]
  cases h : eastmost t (isHeld 0) with
  | none =>
    simp only [Bool.false_eq_true, false_iff, not_exists, not_and]
    intro j _ hj
    have := eastmost_none h (lt_of_held hj)
    rw [hj] at this
    exact absurd this (by decide)
  | some e =>
    obtain ⟨_, he, hmax⟩ := eastmost_some h
    simp only [decide_eq_true_eq]
    refine ⟨fun hi => ⟨e, hi, (isHeld_iff _ _).mp he⟩, fun ⟨j, hj, hc⟩ => ?_⟩
    by_contra hlt
    have := hmax j (by omega) (lt_of_held hc)
    rw [hc] at this
    exact absurd this (by decide)

/-! ### Requests, cell by cell -/

/-- A granted claim met no blocking cell and left each cell as R8 says. -/
theorem claim_granted {t t' : Rail} {g : Gantry} {run : Span} (h : claim t g run = .granted t') :
    (∀ i < 64, run.has i = true →
      cellAt t i ≠ .held (other g) ∧ cellAt t i ≠ .reserved (other g) ∧ crossing t g i = false) ∧
    ∀ i < 64, cellAt t' i =
      if run.has i then .held g else if (cellAt t i).owner = some g then .free else cellAt t i := by
  unfold claim at h
  split at h
  case h_2 => simp at h
  case h_1 hb =>
    simp only [ClaimAnswer.granted.injEq] at h
    subst h
    refine ⟨fun i hi hr => ?_, fun i hi => cellAt_mapCells t _ hi⟩
    have hnone : blockKind t g run i = none := by
      have hmem : i ∈ (if g = 0 then List.range 64 else (List.range 64).reverse) := by split <;> simpa using hi
      have := List.find?_eq_none.mp hb i hmem
      simpa using this
    rw [blockKind, if_pos hr] at hnone
    split at hnone
    · simp at hnone
    · split at hnone
      · simp at hnone
      · split at hnone
        · simp at hnone
        · rename_i h1 h2 h3
          exact ⟨h1, h2, by simpa using h3⟩

/-- A claim answered CONFLICT names a cell of the run with its kind of blocking (R8). -/
theorem claim_conflict {t : Rail} {g : Gantry} {run : Span} {i : Nat} {k : Blocking} (h : claim t g run = .conflict i k) :
    i < 64 ∧ blockKind t g run i = some k := by
  unfold claim at h
  split at h
  case h_1 => simp at h
  case h_2 j hb =>
    simp only [ClaimAnswer.conflict.injEq] at h
    obtain ⟨rfl, hk⟩ := h
    have hsome := List.find?_some hb
    have hmem := List.mem_of_find?_eq_some hb
    have hj : j < 64 := by
      by_cases hg : g = 0
      · rw [if_pos hg] at hmem
        exact List.mem_range.mp hmem
      · rw [if_neg hg] at hmem
        exact List.mem_range.mp (List.mem_reverse.mp hmem)
    refine ⟨hj, ?_⟩
    cases hbk : blockKind t g run j with
    | none => simp [hbk] at hsome
    | some k' => simpa [hbk] using hk

/-- A granted shrink: O was wholly held, and each cell is as R11 says. -/
theorem shrink_granted {t t' : Rail} {g : Gantry} {o : Span} (h : shrink t g o = some t') :
    (∀ i < 64, o.has i = true → cellAt t i = .held g) ∧
    ∀ i < 64, cellAt t' i = if cellAt t i = .held g ∧ o.has i = false then .free else cellAt t i := by
  unfold shrink at h
  split at h
  case isFalse => simp at h
  case isTrue hall =>
    simp only [Option.some.injEq] at h
    subst h
    refine ⟨fun i hi ho => ?_, fun i hi => cellAt_mapCells t _ hi⟩
    have := (List.all_eq_true.mp hall) i (List.mem_range.mpr hi)
    simpa [ho] using this

/-- A freeze or withdraw (R12, R15). -/
theorem cellAt_unreserve (t : Rail) (g : Gantry) (i : Nat) :
    cellAt (unreserve t g) i = if cellAt t i = .reserved g then .free else cellAt t i := by
  by_cases h : i < 64
  · exact cellAt_mapCells t _ h
  · rw [cellAt_of_ge (Nat.not_lt.mp h), cellAt_of_ge (Nat.not_lt.mp h)]
    rfl

/-- A granted reseat met neither the other gantry's cells nor its far side, and left each cell as R13 says. -/
theorem reseat_granted {t t' : Rail} {g : Gantry} {o : Span} (h : reseat t g o = .granted t') :
    (∀ i < 64, o.has i = true → (cellAt t i).owner ≠ some (other g) ∧ crossing t g i = false) ∧
    ∀ i < 64, cellAt t' i =
      if o.has i then .held g else if (cellAt t i).owner = some g then .free else cellAt t i := by
  unfold reseat at h
  split at h
  case isTrue => simp at h
  case isFalse h1 =>
    split at h
    case isTrue => simp at h
    case isFalse h2 =>
      simp only [ReseatAnswer.granted.injEq] at h
      subst h
      refine ⟨fun i hi ho => ⟨fun hown => h1 ?_, ?_⟩, fun i hi => cellAt_mapCells t _ hi⟩
      · exact List.any_eq_true.mpr ⟨i, List.mem_range.mpr hi, by simp [ho, hown]⟩
      · by_contra hc
        exact h2 (List.any_eq_true.mpr ⟨i, List.mem_range.mpr hi, by simp [ho, hc]⟩)

/-- A reserve request only turns FREE cells into RESERVED(g) (R14). -/
theorem cellAt_reserve (t : Rail) (g : Gantry) (i : Nat) :
    cellAt (reserve t g) i = cellAt t i ∨ (cellAt t i = .free ∧ cellAt (reserve t g) i = .reserved g) := by
  unfold reserve
  split
  · exact .inl rfl
  · rename_i r _
    by_cases h : i < 64
    · rw [cellAt_mapCells t _ h]
      split
      · rename_i hc
        exact .inr ⟨hc.2, rfl⟩
      · exact .inl rfl
    · exact .inl (by rw [cellAt_of_ge (Nat.not_lt.mp h), cellAt_of_ge (Nat.not_lt.mp h)])

/-! ### Each request keeps the law of the rail (R17) -/

theorem railLaw_freeRail : RailLaw freeRail :=
  ⟨.inl fun i => by simp, .inl fun i => by simp, fun i j h => by simp at h⟩

/-- The law depends only on which cells are HELD. -/
theorem railLaw_congr {t t' : Rail} (h : ∀ g i, cellAt t' i = .held g ↔ cellAt t i = .held g) (hl : RailLaw t) :
    RailLaw t' := by
  obtain ⟨h0, h1, hw⟩ := hl
  have one : ∀ g, OneRun t g → OneRun t' g := fun g hg => by
    rcases hg with hn | ⟨r, hr1, hr2, hr3⟩
    · exact .inl fun i hi => hn i ((h g i).mp hi)
    · exact .inr ⟨r, hr1, hr2, fun i => (h g i).trans (hr3 i)⟩
  exact ⟨one 0 h0, one 1 h1, fun i j hi hj => hw i j ((h 0 i).mp hi) ((h 1 j).mp hj)⟩

theorem railLaw_unreserve {t : Rail} (g : Gantry) (hl : RailLaw t) : RailLaw (unreserve t g) := by
  refine railLaw_congr (fun g' i => ?_) hl
  rw [cellAt_unreserve]
  split
  · rename_i h
    simp [h]
  · rfl

theorem railLaw_reserve {t : Rail} (g : Gantry) (hl : RailLaw t) : RailLaw (reserve t g) := by
  refine railLaw_congr (fun g' i => ?_) hl
  rcases cellAt_reserve t g i with h | ⟨h1, h2⟩
  · rw [h]
  · simp [h1, h2]

/-- A gantry whose held cells are exactly those of a run, clipped to the 64 cells, holds one run or none. -/
theorem oneRun_of_has {t : Rail} {g : Gantry} {r : Span} (h : ∀ i < 64, cellAt t i = .held g ↔ r.has i = true) :
    OneRun t g := by
  by_cases hr : r.west ≤ r.east ∧ r.west < 64
  · refine .inr ⟨⟨r.west, min r.east 63⟩, by simp only; omega, by simp only; omega, fun i => ?_⟩
    by_cases hi : i < 64
    · rw [h i hi, Span.has_iff, Span.has_iff]
      simp only
      omega
    · have := cellAt_of_ge (t := t) (Nat.not_lt.mp hi)
      simp only [this, reduceCtorEq, Span.has_iff, false_iff]
      omega
  · refine .inl fun i hi => ?_
    have hlt := lt_of_held hi
    have := (Span.has_iff _ _).mp ((h i hlt).mp hi)
    omega

/-- A table in which gantry g holds exactly a run that lies on its side, and the other gantry holds what it held. -/
theorem railLaw_of_seat {t t' : Rail} {g : Gantry} {r : Span} (hl : RailLaw t)
    (hown : ∀ i < 64, cellAt t' i = .held g ↔ r.has i = true)
    (hoth : ∀ i, cellAt t' i = .held (other g) ↔ cellAt t i = .held (other g))
    (hside : ∀ i < 64, r.has i = true → crossing t g i = false) : RailLaw t' := by
  obtain ⟨h0, h1, _⟩ := hl
  have keep : ∀ g', g' = other g → OneRun t g' → OneRun t' g' := fun g' hg hone => by
    subst hg
    rcases hone with hn | ⟨q, hq1, hq2, hq3⟩
    · exact .inl fun i hi => hn i ((hoth i).mp hi)
    · exact .inr ⟨q, hq1, hq2, fun i => (hoth i).trans (hq3 i)⟩
  rcases gantry_cases g with rfl | rfl
  · refine ⟨oneRun_of_has hown, keep 1 (by decide) h1, fun i j hi hj => ?_⟩
    have hi64 := lt_of_held hi
    have hc := hside i hi64 ((hown i hi64).mp hi)
    by_contra hlt
    have : crossing t 0 i = true := (crossing_zero_iff t i).mpr ⟨j, by omega, (hoth j).mp hj⟩
    simp [hc] at this
  · refine ⟨keep 0 (by decide) h0, oneRun_of_has hown, fun i j hi hj => ?_⟩
    have hj64 := lt_of_held hj
    have hc := hside j hj64 ((hown j hj64).mp hj)
    by_contra hlt
    have : crossing t 1 j = true := (crossing_one_iff t j).mpr ⟨i, by omega, (hoth i).mp hi⟩
    simp [hc] at this

/-- The cells of a gantry seated on a run: as R8 and R13 leave the table. -/
theorem seat_held {t t' : Rail} {g : Gantry} {r : Span}
    (h : ∀ i < 64, cellAt t' i = if r.has i then .held g else if (cellAt t i).owner = some g then .free else cellAt t i) :
    ∀ i < 64, cellAt t' i = .held g ↔ r.has i = true := fun i hi => by
  rw [h i hi]
  split
  · simp [*]
  · rename_i hr
    split
    · simp [hr]
    · rename_i hown
      refine ⟨fun hc => absurd (by rw [hc]; rfl) hown, fun hr' => absurd hr' hr⟩

theorem seat_other {t t' : Rail} {g : Gantry} {r : Span}
    (h : ∀ i < 64, cellAt t' i = if r.has i then .held g else if (cellAt t i).owner = some g then .free else cellAt t i)
    (hno : ∀ i < 64, r.has i = true → cellAt t i ≠ .held (other g)) :
    ∀ i, cellAt t' i = .held (other g) ↔ cellAt t i = .held (other g) := fun i => by
  by_cases hi : i < 64
  · rw [h i hi]
    split
    · rename_i hr
      simp [hno i hi hr, (other_ne g).symm]
    · split
      · rename_i hown
        simp only [reduceCtorEq, false_iff]
        intro hc
        rw [hc] at hown
        exact other_ne g (by simpa [CellState.owner] using hown)
      · rfl
  · rw [cellAt_of_ge (Nat.not_lt.mp hi), cellAt_of_ge (Nat.not_lt.mp hi)]

theorem railLaw_claim {t t' : Rail} {g : Gantry} {run : Span} (hl : RailLaw t) (h : claim t g run = .granted t') :
    RailLaw t' := by
  obtain ⟨hb, hc⟩ := claim_granted h
  exact railLaw_of_seat hl (seat_held hc) (seat_other hc fun i hi hr => (hb i hi hr).1) fun i hi hr => (hb i hi hr).2.2

theorem railLaw_reseat {t t' : Rail} {g : Gantry} {o : Span} (hl : RailLaw t) (h : reseat t g o = .granted t') :
    RailLaw t' := by
  obtain ⟨hb, hc⟩ := reseat_granted h
  refine railLaw_of_seat hl (seat_held hc) (seat_other hc fun i hi hr hc' => (hb i hi hr).1 ?_) fun i hi hr => (hb i hi hr).2
  rw [hc']
  rfl

/-- After a granted shrink the gantry holds exactly O (R11). -/
theorem shrink_held {t t' : Rail} {g : Gantry} {o : Span} (h : shrink t g o = some t') :
    ∀ i < 64, cellAt t' i = .held g ↔ o.has i = true := fun i hi => by
  obtain ⟨hall, hc⟩ := shrink_granted h
  rw [hc i hi]
  split
  · rename_i hh
    simp [hh.2]
  · rename_i hh
    constructor
    · intro hheld
      by_contra hno
      exact hh ⟨hheld, by simpa using hno⟩
    · exact hall i hi

theorem shrink_other {t t' : Rail} {g : Gantry} {o : Span} (h : shrink t g o = some t') :
    ∀ i, cellAt t' i = .held (other g) ↔ cellAt t i = .held (other g) := fun i => by
  by_cases hi : i < 64
  · rw [(shrink_granted h).2 i hi]
    split
    · rename_i hh
      simp [hh.1, (other_ne g).symm]
    · rfl
  · rw [cellAt_of_ge (Nat.not_lt.mp hi), cellAt_of_ge (Nat.not_lt.mp hi)]

theorem railLaw_shrink {t t' : Rail} {g : Gantry} {o : Span} (hl : RailLaw t) (h : shrink t g o = some t') :
    RailLaw t' := by
  refine railLaw_of_seat hl (shrink_held h) (shrink_other h) fun i hi ho => ?_
  have hheld := (shrink_granted h).1 i hi ho
  by_contra hc
  rcases gantry_cases g with rfl | rfl
  · obtain ⟨j, hj, hj1⟩ := (crossing_zero_iff t i).mp (by simpa using hc)
    exact absurd (hl.2.2 i j hheld hj1) (by omega)
  · obtain ⟨j, hj, hj0⟩ := (crossing_one_iff t i).mp (by simpa using hc)
    exact absurd (hl.2.2 j i hj0 hheld) (by omega)

end Sys2Proof.Machine
end

