-- ==== Sys2Proof/Laws/Settings.lean ====
section
/-! SUPPORT. The windows that the validation examines: the list the meaning walks through is the one the areas give, and
its walk asks that windows of different areas are apart (R170, R175). -/

namespace Sys2Proof.Machine

/-- The areas whose windows the validation can examine (R170). -/
def watchedAreas : List Area :=
  .order :: (List.finRange 2).map .move ++ (List.finRange 2).map .completion ++ (List.finRange 6).map .report ++
    (List.finRange 6).map .notice ++ [.event]

theorem mem_watchedAreas {c : Settings} {a : Area} {x : Window} (h : examined c a = some x) : a ∈ watchedAreas := by
  unfold watchedAreas
  cases a <;> simp_all [examined]

theorem map_filter_eq_filterMap {α β : Type} (l : List α) (p : α → Bool) (f : α → β) :
    (l.filter p).map f = l.filterMap fun a => if p a then some (f a) else none := by
  induction l with
  | nil => rfl
  | cons a l ih => cases h : p a <;> simp [h, ih]

/-- The windows examined, in the order of the areas they watch (R170). -/
theorem windows_eq (c : Settings) : c.windows = watchedAreas.filterMap (examined c) := by
  unfold Settings.windows Settings.countedWindows Settings.gantries Settings.stations watchedAreas
  simp only [map_filter_eq_filterMap, List.filterMap_append, List.filterMap_cons, List.filterMap_nil,
    List.filterMap_map, examined, Function.comp_def, decide_eq_true_eq, List.cons_append, List.append_assoc]

theorem mem_windows {c : Settings} {x : Window} : x ∈ c.windows ↔ ∃ a, examined c a = some x := by
  rw [windows_eq, List.mem_filterMap]
  exact ⟨fun ⟨a, _, h⟩ => ⟨a, h⟩, fun ⟨a, h⟩ => ⟨a, mem_watchedAreas h, h⟩⟩

theorem apart_iff (a b : Window) :
    apart a b = true ↔ a.base + 16 * a.slots ≤ b.base ∨ b.base + 16 * b.slots ≤ a.base :=
  decide_eq_true_iff

theorem allApart_iff (l : List Window) : allApart l = true ↔ l.Pairwise fun a b => apart a b = true := by
  induction l with
  | nil => simp [allApart]
  | cons a l ih => simp [allApart, ih]

/-- Windows of different areas are apart (R175, test 6). -/
theorem windows_apart (c : Settings) : (c.windows.filter Window.present).Pairwise (fun a b => apart a b = true) ↔
    ∀ a b x y, a ≠ b → examined c a = some x → examined c b = some y → x.base ≠ 0 → y.base ≠ 0 →
      apart x y = true := by
  have hn : watchedAreas.Nodup := by decide
  have symm : ∀ x y, apart x y = true → apart y x = true := fun x y h => by
    rw [apart_iff] at h ⊢
    exact h.symm
  rw [windows_eq, List.pairwise_filter, List.pairwise_filterMap]
  have pr : ∀ x : Window, x.present = true ↔ x.base ≠ 0 := fun x => decide_eq_true_iff
  constructor
  · intro h a b x y hab ha hb hx hy
    have hs : Std.Symm fun a a' => ∀ x, examined c a = some x → ∀ y, examined c a' = some y →
        x.present = true → y.present = true → apart x y = true :=
      ⟨fun a a' h y hy x hx py px => symm _ _ (h x hx y hy px py)⟩
    exact List.Pairwise.forall h (mem_watchedAreas ha) (mem_watchedAreas hb) hab x ha y hb ((pr x).mpr hx)
      ((pr y).mpr hy)
  · intro h
    exact hn.pairwise_of_forall_ne fun a _ b _ hab x ha y hb hx hy =>
      h a b x y hab ha hb ((pr x).mp hx) ((pr y).mp hy)

end Sys2Proof.Machine
end

