-- ==== Sys2Proof/WellFormed.lean ====
section
/-! DEFINITION. Which commands can be presented at all: R137's burst length of 1 to 16 words, and the codes that
R156 leaves unknown. What a transaction is taken for depends on the state and is decided by the upstream port. -/

namespace Sys2Proof

/-- R137: a burst has 1 to 16 words. -/
def burstOk (n : Nat) : Bool := decide (1 ≤ n ∧ n ≤ 16)

/-- R137 for a whole transaction. -/
def Txn.wf (t : Txn) : Bool :=
  match t.op with
  | .read n => burstOk n
  | .write ws => burstOk ws.length

/-- R156: the codes 1 to 6 are known commands; any other value is an unknown command. -/
def unknownCode (c : BitVec 8) : Bool := decide (c = 0 ∨ 6 < c.toNat)

/-- The command can be presented to the part. -/
def Instr.wf : Instr → Bool
  | .moveRead _ _ => true
  | .judgeMove _ => true
  | .latencyExpiry _ => true
  | .completionWrite _ _ ws => burstOk ws.length
  | .orderWrite _ _ ws => burstOk ws.length
  | .reportWrite _ _ ws => burstOk ws.length
  | .clearHalt _ _ _ => true
  | .cancelOrder _ _ _ => true
  | .unblockStation _ _ _ => true
  | .ackEvents _ _ _ => true
  | .resetFeed _ _ _ => true
  | .reloadSettings _ _ _ => true
  | .unknownCommand _ _ code _ => unknownCode code
  | .statusRead _ _ n => burstOk n
  | .ownerWritePosted _ _ ws => burstOk ws.length
  | .forwardRaw t => t.wf
  | .heldMemoryAnswer _ => true
  | .postedWriteAnswer _ => true
  | .postedWriteTimeout _ => true
  | .portGrant => true
  | .noticeWriteAnswer _ => true
  | .eventWriteAnswer _ => true
  | .recordWriteTimeout _ => true
  | .settingsBurst _ => true
  | .settingsBurstTimeout _ => true
  | .resetAssert => true
  | .resetRelease _ _ => true
  | .vacRawChange _ _ => true
  | .vacFall _ => true
  | .vacRise _ => true
  | .presentRawChange _ _ => true
  | .presentRise _ => true
  | .presentFall _ => true
  | .moveTimeout _ => true
  | .landingTimeout _ => true
  | .guardExpiry _ => true
  | .partTimeTick => true

end Sys2Proof
end

