-- ==== Sys2Proof/Tests/Slice0.lean ====
section
/-! SUPPORT. Tests: the well-formedness smoke, worked numbers of the spec, one small step for each command, and a
witness for the hypotheses of every statement (one test for each clause). -/

namespace Sys2Proof.Tests

open Sys2Proof.Machine

set_option Elab.async false

/-! ### Well-formedness and words -/

theorem test_wf_completionWrite : (Instr.completionWrite 0 0 []).wf = false := by decide
theorem test_wf_orderWrite : (Instr.orderWrite 0 0 []).wf = false := by decide
theorem test_wf_reportWrite : (Instr.reportWrite 0 0 []).wf = false := by decide
theorem test_wf_ownerWritePosted : (Instr.ownerWritePosted 0 0 (List.replicate 17 ⟨0, false⟩)).wf = false := by decide
theorem test_wf_statusRead : (Instr.statusRead 0 0 0).wf = false ∧ (Instr.statusRead 0 0 17).wf = false ∧
    (Instr.statusRead 0 0 16).wf = true := by decide
theorem test_wf_unknownCommand : (Instr.unknownCommand 0 0 6 ⟨0, 0, false, 0, 0, 0, 0⟩).wf = false ∧
    (Instr.unknownCommand 0 0 7 ⟨0, 0, false, 0, 0, 0, 0⟩).wf = true := by decide
theorem test_wf_forwardRaw : (Instr.forwardRaw ⟨0, true, 0, .read 17⟩).wf = false ∧
    (Instr.forwardRaw ⟨0, true, 0, .write []⟩).wf = false := by decide

theorem test_noWordSpellsACommand : decodeTableWord 32 0 = none := by decide

/-- R171: the check over "123456789". -/
theorem test_crc : crc16 [0x31, 0x32, 0x33, 0x34, 0x35, 0x36, 0x37, 0x38, 0x39] = 0x29B1#16 := by decide +kernel

/-! ### A part in RUN -/

/-- Settings: the rail of 32 cells of 1 m, two gantries, three stations, two stacks. -/
def cfg : Settings :=
  { Settings.unset with
    gantryCount := 2, stationCount := 3, stackCount := 2, cellCount := 32, cellLen := 1000, halfWidth := 500
    margin := 200, cmax := 3200, stackPos := #v[3000, 28000, 0, 0], stationPos := #v[11000, 16000, 21000, 0, 0, 0]
    bayPos := 31000, guardTime := #v[1000, 0, 1000, 0, 0, 0], landingTimeout := 2000, moveTimeout := 60
    filterTime := 20, threshold := 2, bound := 8, driveTag := #v[1, 2], sawTag := #v[3, 3, 4, 0, 0, 0]
    orderWin := ⟨0x1000, 8⟩, moveWin := #v[⟨0x2000, 8⟩, ⟨0x2080, 8⟩], completionWin := #v[⟨0x2100, 8⟩, ⟨0x2180, 8⟩]
    reportBase := #v[0x3000, 0x3010, 0x3020, 0, 0, 0], noticeBase := #v[0x3100, 0x3110, 0x3120, 0, 0, 0]
    ringBase := 0x4000, ringLog := 4 }

/-- A context in IDLE at a position. -/
def idle (p : Nat) : Ctx := { Ctx.powerOn 0 with state := .idle, pos := some p, halt := none }

/-- Gantry 0 holds cells 4 and 5, gantry 1 cells 19 and 20. -/
def rail : Rail :=
  mapCells freeRail fun i _ => if 4 ≤ i ∧ i ≤ 5 then .held 0 else if 19 ≤ i ∧ i ≤ 20 then .held 1 else .free

/-- Both gantries IDLE, at 5 m and 20 m. -/
def feed : Feed := { Feed.reset with part := .run, cfg := cfg, time := 100000, rail := rail, ctx := #v[idle 5000, idle 20000] }

/-- The part with its anchor at 2 MiB and line computer tag 0. -/
def on (f : Feed) : State := { State.reset with base := 2, feed := f }

/-- An order for a panel of 2.5 m from stack 0 to station 1. -/
def order : Order := ⟨7, 0, 1, 2500, 2, 2, 0, 0, 0, none⟩

/-- Words with good parity. -/
abbrev good (ws : List Word) : List PWord := outWords ws

/-- The words of a move record, of a completion, of an order record and of a report (section 11.1). -/
def moveWords (kind toggle tag target : Nat) : List Word :=
  [pack [(0, 4, kind), (4, 1, toggle), (8, 12, tag)], pack [(0, 24, target)], 0, 0]
def endWords (kind toggle ending reached : Nat) : List Word :=
  [pack [(0, 4, kind), (4, 1, toggle), (8, 4, ending)], pack [(0, 24, reached)], 0, 0]
def orderWords (tag stack station batch len dep : Nat) : List Word :=
  [pack [(0, 12, tag), (12, 4, stack), (16, 4, station), (20, 4, batch)], pack [(0, 16, len), (16, 12, dep)], 0, 0]
def reportWords (toggle saw : Nat) : List Word := [pack [(0, 4, saw), (4, 1, toggle)], 0, 0, 0]

/-- A control record. -/
def ctl (a : Nat) (b : Option Nat) : ControlRec := ⟨.ofNat 16 a, .ofNat 24 (b.getD 0), b.isSome, 0, 0, 0, 0⟩

/-- The feed side of the state a step answers. -/
def after (o : Host.Outcome State Fault Refusal) : Option Feed :=
  match o with
  | .next s => some s.feed
  | .fault _ => none
  | .refused _ => none

/-- The answer on the bus of the state a step answers. -/
def reply (o : Host.Outcome State Fault Refusal) : Option (AnswerKind × List Word) :=
  match o with
  | .next s => s.bus.answer.map fun a => (a.kind, a.data.map (·.data))
  | .fault _ => none
  | .refused _ => none

/-- The stamp word posted by the state a step answers. -/
def stamped (o : Host.Outcome State Fault Refusal) : Option Word :=
  match o with
  | .next s => s.bus.posted.map fun p => wordAt (p.words.map (·.data)) 2
  | .fault _ => none
  | .refused _ => none

/-! ### Worked numbers (chapter 1) -/

/-- Section 1.3, worked arithmetic: the rail of 40 cells of 800 mm. -/
def worked : Settings := { cfg with cellCount := 40, cellLen := 800, halfWidth := 600, margin := 150 }

theorem test_occupancy : worked.occupancy 5000 none = ⟨5, 7⟩ ∧ worked.occupancy 300 none = ⟨0, 1⟩ ∧
    worked.occupancy 2400 (some ⟨1, 2500, .order⟩) = ⟨1, 4⟩ := by decide
theorem test_swept : worked.swept 5000 2400 2500 = ⟨1, 8⟩ := by decide

/-- Section 1.4, two overlapping claims: gantry 1's claim of cells 10 to 19 meets cell 13. -/
theorem test_claim :
    let t := mapCells freeRail fun i _ => if 5 ≤ i ∧ i ≤ 13 then .held 0 else if 15 ≤ i ∧ i ≤ 19 then .held 1 else .free
    claim t 1 ⟨10, 19⟩ = .conflict 13 .held := by decide +kernel

/-- Section 1.5, a reservation laid: cell 14 alone. -/
theorem test_reserve :
    let t := mapCells freeRail fun i _ => if 11 ≤ i ∧ i ≤ 13 then .held 0 else if 15 ≤ i ∧ i ≤ 19 then .held 1 else .free
    (List.range 64).filter (fun i => cellAt (reserve t 1) i == .reserved 1) = [14] := by decide +kernel

/-! ### States for the steps -/

/-- The fetch of a judged read in progress. -/
def fetchOp (g : Gantry) : PortOp := ⟨.judged g, 0x2000 + 128 * g.val, .read 4, false⟩
def fetching (g : Gantry) (f : Feed) : State := { on f with bus := { Bus.reset with turn := none, port := some (fetchOp g) } }

/-- Job memory answers with the two words of a move record. -/
def answer (ws : List Word) : MemAnswer := .done [⟨0, PWord.good (wordAt ws 0)⟩, ⟨1, PWord.good (wordAt ws 1)⟩]

/-- The feed with context 0 changed, and the words most tests use. -/
def with0 (h : Ctx → Ctx) (f : Feed) : Feed := f.modCtx 0 h
def orders : Feed := { feed with orders := [order] }
def gripping : Feed := { orders with vac := #v[⟨true, none⟩, ⟨false, none⟩] }
def carried (kind : CarryKind) (tag : Nat) (c : Ctx) : Ctx := { c with carry := some ⟨tag, 2500, kind⟩ }
def haltedCtx (c : Ctx) : Ctx := { c with state := .halted, halt := some ⟨.badMove, some .range, 0, 0⟩ }
def flightOf (k : MoveKind) (tag : Nat) : Flight :=
  ⟨k, false, 5000, tag, some 2500, some 1, 4, 5, 40000⟩
def moving (k : MoveKind) (tag : Nat) (c : Ctx) : Ctx :=
  { c with state := .moving, flight := some (flightOf k tag), expected := true, timer := true }
/-- The order with panels of it out. -/
def out (n : Nat) : Feed := { feed with orders := [{ order with out := n }] }
/-- Gantry 0 alone on the rail, holding cells 2 to 8. -/
def wide (f : Feed) : Feed := { f with rail := mapCells freeRail fun i _ => if 2 ≤ i ∧ i ≤ 8 then .held 0 else .free }

/-! ### Witnesses: the rail -/

theorem witness_ExtentOfAPanelLength :
    2 * 1251 = 2501 + 1 ∧ 2 * 1250 = 2500 ∧ 1000 ≤ 2 * cfg.halfWidth ∧ 100 ≤ cfg.halfWidth ∧ cfg.halfWidth ≤ 1500 ∧
      cfg.margin ≤ 1000 ∧ 3200 ≤ 3200 := by decide

theorem witness_OccupancySpanCoversTheGantry :
    0 < cfg.cellLen ∧ 0 < cfg.cellCount * cfg.cellLen ∧ 31999 < cfg.cellCount * cfg.cellLen := by decide

theorem witness_SweptSpanCoversTheMove :
    0 < cfg.cellLen ∧ 5000 < cfg.railLen ∧ (MoveRec.mk 2 false 7 3000).target < cfg.railLen ∧
      orders.cfg = cfg ∧ orders.ctx[(0 : Gantry)].pos = some 5000 ∧ orders.findOrder 7 = some order ∧
      (MoveRec.mk 1 false 0 5000).target = 5000 := by decide +kernel

/-- A law of every index holds if it holds below 64 and where the cell is FREE. -/
theorem every_index {t : Rail} {P : Nat → Prop} (h : ∀ i < 64, P i) (h' : ∀ i, cellAt t i = .free → P i) : ∀ i, P i := by
  intro i
  by_cases hi : i < 64
  · exact h i hi
  · exact h' i (by unfold cellAt; rw [dif_neg hi])

theorem cellAt_freeRail (i : Nat) : cellAt freeRail i = .free := by
  unfold cellAt freeRail
  split <;> simp

theorem witness_ClaimIsGrantedOrNamesTheNearestBlockingCell :
    ((0 : Nat) ≤ 63 ∧ 63 < 64 ∧ ∀ i k, ¬Blocks freeRail 0 ⟨0, 63⟩ i k) ∧ ∃ i k, Blocks rail 1 ⟨0, 63⟩ i k := by
  refine ⟨⟨by decide, by decide, ?_⟩, 5, .held, by decide +kernel, by decide +kernel⟩
  intro i k h
  cases k with
  | held => exact absurd ((cellAt_freeRail i).symm.trans h.2) (by decide)
  | reserved => exact absurd ((cellAt_freeRail i).symm.trans h.2) (by decide)
  | crossing =>
    obtain ⟨_, j, hj, _⟩ := h
    exact absurd ((cellAt_freeRail j).symm.trans hj) (by decide)

theorem witness_ShrinkFreezeAndReseat_shrink :
    (∀ i, (Span.mk 4 5).has i = true → cellAt rail i = .held 0) ∧
      ((Span.mk 5 6).has 6 = true ∧ cellAt rail 6 ≠ .held 0) := by
  refine ⟨every_index (t := rail) (by decide +kernel) fun i _ hi => ?_, by decide +kernel⟩
  have h := of_decide_eq_true hi
  have : i = 4 ∨ i = 5 := by
    simp only at h
    omega
  rcases this with rfl | rfl <;> decide +kernel

theorem witness_ShrinkFreezeAndReseat_reseat :
    ((Span.mk 18 19).has 19 = true ∧ (cellAt rail 19).owner = some (other 0)) ∧
      ((∀ i < 64, (Span.mk 40 41).has i = true → (cellAt rail i).owner ≠ some (other 0)) ∧
        (Span.mk 40 41).has 40 = true ∧ cellAt rail 20 = .held (other 0) ∧ ¬(40 < 20)) ∧
      ∀ i < 64, ∀ j < 64, (Span.mk 8 9).has i = true → cellAt rail j = .held (other 0) → i < j := by decide +kernel

/-- The near side of gantry 0 is cells 6 to 18, and cell 19 lies outside it. -/
theorem witness_ReserveTakesTheNearSide : Near rail 0 6 ∧ Near rail 0 18 ∧ ¬Near rail 0 19 := by
  have east : ∀ i, 5 < i → ∀ h, cellAt rail h = .held 0 → Beyond 0 h i := fun i hi =>
    every_index (t := rail) (fun h hh e => by
        have : ∀ h < 64, cellAt rail h = .held 0 → h ≤ 5 := by decide +kernel
        have := this h hh e
        show h < i
        omega)
      fun _ hf he => absurd (hf.symm.trans he) (by decide)
  have stop : ∀ i, i < 19 → ∀ k, (cellAt rail k).owner = some (other 0) →
      (∀ h, cellAt rail h = .held 0 → Beyond 0 h k) → Beyond 0 i k := fun i hi =>
    every_index (t := rail) (fun k hk e _ => by
        have : ∀ k < 64, (cellAt rail k).owner = some (other 0) → 19 ≤ k := by decide +kernel
        have := this k hk e
        show i < k
        omega)
      fun _ hf he _ => absurd ((congrArg CellState.owner hf).symm.trans he) (by decide)
  have held : cellAt rail 4 = .held 0 := by decide +kernel
  have far : (cellAt rail 19).owner = some (other 0) := by decide +kernel
  refine ⟨⟨⟨4, held⟩, east 6 (by omega), ⟨19, far, by unfold Beyond; decide⟩, stop 6 (by omega)⟩,
    ⟨⟨4, held⟩, east 18 (by omega), ⟨19, far, by unfold Beyond; decide⟩, stop 18 (by omega)⟩, fun h => ?_⟩
  exact absurd (h.2.2.2 19 far (east 19 (by omega))) (by unfold Beyond; decide)

theorem witness_RailChangeClearsTheBlockedFlag :
    ChangesOf (other 0) feed.rail freeRail ∧ ¬ChangesOf (other 0) feed.rail feed.rail :=
  ⟨⟨19, by decide +kernel⟩, fun ⟨_, h, _⟩ => h rfl⟩

/-! ### Witnesses: judged reads -/

theorem witness_JudgeMoveWithBadDataWaitsAndCounts :
    let run n h := fetching 0 (with0 (fun c => { (if h then haltedCtx c else c) with memRun := n }) feed)
    let ok (s : State) : Prop := Fetching s 0 (fetchOp 0) ∧ goodData (s.readAnswer (fetchOp 0) .fault) = none
    (ok (run 1 false) ∧ (run 1 false).feed.ctx[(0 : Gantry)].memRun < 2) ∧
      (ok (run 2 false) ∧ (run 2 false).feed.ctx[(0 : Gantry)].state ≠ .halted) ∧
      (ok (run 2 true) ∧ (run 2 true).feed.ctx[(0 : Gantry)].state = .halted) ∧
      (ok (run 3 true) ∧ (run 3 true).feed.ctx[(0 : Gantry)].memRun = 3) := by decide +kernel

/-- The fetch of gantry 0's read answered with a move record. -/
abbrev Reads (f : Feed) (ws : List Word) : Prop := Fetched (fetching 0 f) 0 (fetchOp 0) (answer ws) ws

theorem witness_JudgeMoveStopsRepeatsOrWaits :
    let halted := with0 haltedCtx feed
    let busy := with0 (moving .travel 0) feed
    let hold := feed.modCtx 1 haltedCtx
    (Reads halted (moveWords 1 0 0 6000) ∧ halted.ctx[(0 : Gantry)].state = .halted ∧
        halted.ctx[(0 : Gantry)].halt = some ⟨.badMove, some .range, 0, 0⟩) ∧
      (Reads busy (moveWords 1 0 0 5000) ∧ busy.ctx[(0 : Gantry)].state ≠ .halted ∧
        (MoveRec.ofWords (moveWords 1 0 0 5000)) = ⟨1, false, 0, 5000⟩ ∧ busy.ctx[(0 : Gantry)].expected = true ∧
        busy.ctx[(0 : Gantry)].flight = some (flightOf .travel 0)) ∧
      (Reads feed (moveWords 1 1 0 5000) ∧ (MoveRec.ofWords (moveWords 1 1 0 5000)).toggle = true ∧
        feed.ctx[(0 : Gantry)].expected = false ∧ feed.ctx[(0 : Gantry)].flight = none) ∧
      (Reads feed (moveWords 0 0 0 0) ∧ (MoveRec.ofWords (moveWords 0 0 0 0)).kind = 0 ∧
        feed.ctx[(0 : Gantry)].expected = false) ∧
      (Reads busy (moveWords 15 1 0 0) ∧ busy.ctx[(0 : Gantry)].state = .moving ∧
        (MoveRec.ofWords (moveWords 15 1 0 0)) = ⟨15, true, 0, 0⟩) ∧
      (Reads hold (moveWords 1 0 0 6000) ∧ hold.ctx[(0 : Gantry)].state = .idle ∧ hold.hold = true) := by
  decide +kernel

theorem carryListed_none {f : Feed} {g : Gantry} (h : orderTag f.ctx[g].carry = none) : CarryListed f g := by
  intro tag ht
  rw [h] at ht
  cases ht

theorem carryListed_some {f : Feed} {g : Gantry} {x : Nat} (h : orderTag f.ctx[g].carry = some x)
    (hx : (f.findOrder x).isSome = true) : CarryListed f g := by
  intro tag ht
  rw [h] at ht
  cases ht
  exact hx

/-- A record of gantry 0 that passes the steps before the move is examined, and what the two tables find. -/
abbrev Examined (f : Feed) (ws : List Word) (bad : Option BadMove) (late : Option WaitReason) : Prop :=
  Reads f ws ∧ Judgeable (fetching 0 f) 0 (.ofWords ws) ∧ firstFailing (badMoveTests f 0 (.ofWords ws)) = bad ∧
    firstFailing (notYetTests f 0 (.ofWords ws)) = late

/-- The feed with gantry 0 carrying a panel of the order, one panel out. -/
def carrying : Feed := with0 (carried .order 7) { out 1 with vac := #v[⟨true, none⟩, ⟨false, none⟩] }

theorem witness_JudgeMoveStopsABadMove :
    CarryListed feed 0 ∧ Examined feed (moveWords 5 0 0 0) (some .kind) none ∧
      Examined feed (moveWords 1 0 0 32000) (some .range) none ∧
      Examined feed (moveWords 4 0 0 31000) (some .notCarrying) none ∧
      CarryListed carrying 0 ∧ Examined carrying (moveWords 3 0 0 10999) (some .notAtStation) none :=
  ⟨carryListed_none (by decide +kernel), by decide +kernel, by decide +kernel, by decide +kernel,
    carryListed_some (x := 7) (by decide +kernel) (by decide +kernel), by decide +kernel⟩

theorem witness_JudgeMoveWaitsUntilTheMoveMayStart :
    CarryListed (out 2) 0 ∧ Examined (out 2) (moveWords 2 0 7 3000) none (some .orderOut) ∧ CarryListed carrying 0 ∧
      Examined (carrying.modStation 1 fun x => { x with state := .guard }) (moveWords 3 0 0 16000) none
        (some .station) ∧
      Examined { carrying with orders := { order with tag := 6 } :: carrying.orders } (moveWords 3 0 0 16000) none
        (some .plan) :=
  ⟨carryListed_none (by decide +kernel), by decide +kernel,
    carryListed_some (x := 7) (by decide +kernel) (by decide +kernel), by decide +kernel, by decide +kernel⟩

theorem granted_of_free {t : Rail} {g : Gantry} {r : Span} (h : blockingCell t g r = none) :
    ∃ t', claim t g r = .granted t' := by
  unfold claim
  rw [h]
  exact ⟨_, rfl⟩

/-- A record of gantry 0 offered to the rail: its swept span, and the blocking cell it meets. -/
abbrev Offers (f : Feed) (k : MoveKind) (ws : List Word) (cell : Option Nat) : Prop :=
  Examined f ws none none ∧ k.code = (MoveRec.ofWords ws).kind ∧
    blockingCell f.rail 0 (moveSpan 0 k (.ofWords ws) f) = cell

theorem witness_JudgeMoveAcceptsAGrantedMove :
    Offers feed .travel (moveWords 1 0 0 0) none ∧ CarryListed feed 0 ∧
      Offers { with0 (carried .unknown 0) feed with rail := freeRail } .reject (moveWords 4 0 0 31000) none ∧
      CarryListed (with0 (carried .unknown 0) feed) 0 ∧
      Offers orders .pick (moveWords 2 0 7 3000) none ∧ orders.findOrder 7 = some order ∧ CarryListed orders 0 ∧
      Offers carrying .place (moveWords 3 0 0 16000) none ∧ carryOrder carrying 0 = some { order with out := 1 } ∧
      CarryListed carrying 0 :=
  ⟨by decide +kernel, carryListed_none (by decide +kernel), by decide +kernel, carryListed_none (by decide +kernel),
    by decide +kernel, by decide +kernel, carryListed_none (by decide +kernel), by decide +kernel, by decide +kernel,
    carryListed_some (x := 7) (by decide +kernel) (by decide +kernel)⟩

/-- A feed where gantry 0 has waited for a TRAVEL to 25 m, and gantry 1 for something else. -/
def waiting (n m : Nat) : Feed :=
  (with0 (fun c => { c with wait := ⟨some ⟨false, .travel, 25000⟩, n, false⟩ }) feed).modCtx 1
    fun c => { c with wait := ⟨none, m, true⟩ }

/-- The wait counted once more, and the reserve request it makes. -/
def counted (n : Nat) (f : Feed) : Feed :=
  f.modCtx 0 fun c => { c with wait := ⟨some ⟨false, .travel, 25000⟩, n, true⟩ }
def reserving (f : Feed) : Feed := f.setRail (reserve f.rail 0)

/-- The mutual-block test passes for gantry 0 with wait count n. -/
abbrev Mutual (n : Nat) (f : Feed) : Prop :=
  f.blockReport = .armed ∧ f.cfg.threshold ≤ n ∧ f.ctx[(0 : Gantry)].wait.blocked = true ∧ f.gantryOn 1 = true ∧
    f.ctx[(1 : Gantry)].state = .idle ∧ f.cfg.threshold ≤ f.ctx[(1 : Gantry)].wait.count ∧
    f.ctx[(1 : Gantry)].wait.blocked = true

/-- A feed where gantry 0's near side is reserved already. -/
def reserved : Feed := { waiting 2 2 with rail := reserve rail 0 }

theorem witness_JudgeMoveWaitsForRail :
    (CarryListed feed 0 ∧ Offers feed .travel (moveWords 1 0 0 25000) (some 19)) ∧
      (feed.ctx[(0 : Gantry)].wait.id ≠ some ⟨false, .travel, 25000⟩ ∧ 1 < cfg.threshold) ∧
      Offers (waiting 1 0) .travel (moveWords 1 0 0 25000) (some 19) ∧
      ((waiting 1 0).ctx[(0 : Gantry)].wait.id = some ⟨false, .travel, 25000⟩ ∧ 2 = cfg.threshold) ∧
      ¬Mutual 2 (reserving (counted 2 (waiting 1 0))) ∧
      Offers reserved .travel (moveWords 1 0 0 25000) (some 19) ∧ cfg.threshold < 3 ∧
      Mutual 3 (reserving (counted 3 reserved)) :=
  ⟨⟨carryListed_none (by decide +kernel), by decide +kernel⟩, by decide +kernel, by decide +kernel, by decide +kernel,
    by decide +kernel, by decide +kernel, by decide +kernel, by decide +kernel⟩

/-! ### Witnesses: completions and the grip -/

/-- Gantry 0's drive writes a completion record. -/
abbrev Writes (f : Feed) (ws : List Word) : Prop := OwnerRecord (on f) 1 0x2100#24 (good ws) (.completion 0)
/-- The completion as the part reads it. -/
def ending (ws : List Word) : CompletionRec := .ofWords (dataOf (good ws))

theorem noMatch {s : State} {g : Gantry} {r : CompletionRec} (h : s.feed.ctx[g].flight = none) (m : Flight) :
    ¬Matches s g m r := by
  intro hm
  rw [hm.1] at h
  cases h

theorem witness_CompletionWriteDuplicateOrMismatch :
    (Writes feed (endWords 1 1 1 5000) ∧ feed.ctx[(0 : Gantry)].state = .idle ∧
        (ending (endWords 1 1 1 5000)).toggle = feed.ctx[(0 : Gantry)].lastDone) ∧
      (Writes feed (endWords 1 0 1 5000) ∧
        (ending (endWords 1 0 1 5000)).toggle ≠ feed.ctx[(0 : Gantry)].lastDone) ∧
      (Writes (with0 (moving .travel 0) feed) (endWords 1 0 15 5000) ∧
        (ending (endWords 1 0 15 5000)).ending = .unknown) ∧
      (Writes (with0 haltedCtx feed) (endWords 1 0 1 5000) ∧
        ∀ m, ¬Matches (on (with0 haltedCtx feed)) 0 m (ending (endWords 1 0 1 5000))) :=
  ⟨by decide +kernel, by decide +kernel, by decide +kernel, by decide +kernel, noMatch (by decide +kernel)⟩

/-- Gantry 0 MOVING with a panel or none, gripping or not. -/
def ends (k : MoveKind) (carry : Option Carry) (vac : Bool) : Feed :=
  wide { (with0 (fun c => { moving k 7 c with carry := carry }) (out 1)) with vac := #v[⟨vac, none⟩, ⟨false, none⟩] }
/-- A clean ending at 5 m that leaves a carry. -/
abbrev Clean (f : Feed) (k : MoveKind) (e : Nat) (left : Option Carry) : Prop :=
  Writes f (endWords k.code 0 e 5000) ∧ EndsClean (on f) 0 (flightOf k 7) (ending (endWords k.code 0 e 5000)) left
    ((shrink f.rail 0 (f.cfg.occupancy 5000 left)).getD freeRail)
def panel (kind : CarryKind) : Option Carry := some ⟨7, 2500, kind⟩

theorem witness_CompletionWriteSettlesTravelAndReject :
    Clean (ends .travel (panel .order) true) .travel 1 (panel .order) ∧
      Clean (ends .reject (panel .order) false) .reject 1 none ∧
      Clean (ends .reject (panel .orphan) false) .reject 1 none ∧
      Clean (ends .reject (panel .order) true) .reject 1 (panel .order) ∧
      Clean (ends .reject (panel .orphan) false) .reject 2 (panel .orphan) :=
  ⟨by decide +kernel, by decide +kernel, by decide +kernel, by decide +kernel, by decide +kernel⟩

theorem witness_CompletionWriteSettlesPick :
    Clean (ends .pick none true) .pick 1 (panel .order) ∧ Clean (ends .pick none false) .pick 1 none ∧
      Clean (ends .pick none true) .pick 2 none :=
  ⟨by decide +kernel, by decide +kernel, by decide +kernel⟩

theorem witness_CompletionWriteSettlesPlace :
    Clean (ends .place (panel .order) false) .place 1 none ∧
      Clean (ends .place (panel .order) true) .place 1 (panel .order) ∧
      Clean (ends .place (panel .order) true) .place 2 (panel .order) ∧
      orderTag (panel .order) = some 7 ∧ (flightOf .place 7).station = some 1 :=
  ⟨by decide +kernel, by decide +kernel, by decide +kernel, by decide, by decide⟩

/-- A completion of the TRAVEL in flight with an outcome and a reached position. -/
abbrev Late (f : Feed) (e p : Nat) : Prop :=
  Writes f (endWords 1 0 e p) ∧ Matches (on f) 0 (flightOf .travel 7) (ending (endWords 1 0 e p))

theorem witness_CompletionWriteClosesUnsettled :
    (Late (ends .travel none false) 1 32000 ∧ cfg.railLen ≤ 32000) ∧
      (Late (ends .travel none false) 2 9000 ∧ shrink (ends .travel none false).rail 0 (cfg.occupancy 9000 none) = none) ∧
      Late (ends .travel none false) 3 5000 ∧
      (Late (with0 haltedCtx (ends .travel none false)) 0 5000 ∧
        (with0 haltedCtx (ends .travel none false)).ctx[(0 : Gantry)].state = .halted) :=
  ⟨by decide +kernel, by decide +kernel, by decide +kernel, by decide +kernel⟩

theorem witness_UnsettledCloseGoesByTheGrip :
    (ends .pick none true).vac[(0 : Gantry)].level = true ∧ ((ends .pick none true).findOrder 7).isSome = true ∧
      feed.findOrder 7 = none ∧ (ends .pick none false).vac[(0 : Gantry)].level = false ∧
      orderTag (ends .place (panel .order) false).ctx[(0 : Gantry)].carry = some 7 ∧
      orderTag (ends .place (panel .orphan) false).ctx[(0 : Gantry)].carry = none ∧
      (flightOf .pick 7).len = some 2500 ∧ (flightOf .place 7).station = some 1 := by decide +kernel

/-- R93, rows 2 and 3: after a DROP of the order's panel on gantry 1, the reads of gantry 0 meet WAIT, HOLD; with that halt
cleared they meet STOP, BAD_MOVE, ORDER_FAULTED and WAIT, PLAN. -/
def dropped (f : Feed) : Feed := (f.modCtx 1 (carried .order 7)).drop 1
def released (f : Feed) : Feed := (dropped f).modCtx 1 fun _ => idle 20000

theorem test_judge_afterDrop :
    reply (exec (.judgeMove (answer (moveWords 2 0 7 3000))) (fetching 0 (dropped (out 1)))) =
        some (.done, [0x708, 3000, 0xFFFF1202, 100000]) ∧
      reply (exec (.judgeMove (answer (moveWords 2 0 7 3000))) (fetching 0 (released (out 1)))) =
        some (.done, [0x709, 3000, 0xFFFF0353, 100000]) ∧
      reply (exec (.judgeMove (answer (moveWords 3 0 0 16000)))
        (fetching 0 (released { carrying with orders := [{ order with out := 2 }] }))) =
        some (.done, [0x8, 16000, 0xFFFF1502, 100000]) := by decide +kernel

theorem witness_GripCheckDropAndUnexpectedGrip :
    (orders.findOrder 7 = some order ∧ orders.part = .run ∧ orders.gantryOn 0 = true) ∧
    orderTag carrying.ctx[(0 : Gantry)].carry = some 7 ∧ carrying.vac[(0 : Gantry)].level = true ∧
      feed.ctx[(0 : Gantry)].carry = none ∧ feed.vac[(0 : Gantry)].level = false ∧
      (with0 (carried .orphan 7) feed).ctx[(0 : Gantry)].carry.isSome = true ∧
      gripping.ctx[(0 : Gantry)].carry = none ∧ gripping.vac[(0 : Gantry)].level = true := by decide +kernel

/-- A VAC change to a level is due at gantry 0, after exactly the filter time. -/
def vacChange (level : Bool) (f : Feed) : State :=
  { on { f with vac := #v[⟨!level, some 99980⟩, ⟨false, none⟩] } with vacRaw := #v[level, false] }
abbrev VacDue (s : State) (level : Bool) : Prop :=
  s.resetLow = false ∧ s.feed.part = .run ∧ s.feed.gantryOn 0 = true ∧ s.feed.vac[(0 : Gantry)].level ≠ level ∧
    s.vacRaw[(0 : Gantry)] = level ∧ s.feed.vac[(0 : Gantry)].since = some 99980 ∧
    s.feed.cfg.filterTime ≤ (s.feed.time - 99980).toNat

theorem witness_VacChangeActsByMoveAndCarry :
    VacDue (vacChange false (ends .place (panel .order) true)) false ∧ VacDue (vacChange false carrying) false ∧
      VacDue (vacChange false feed) false ∧ VacDue (vacChange true (ends .pick none false)) true ∧
      VacDue (vacChange true carrying) true ∧ VacDue (vacChange true feed) true ∧
      (ends .place (panel .order) true).ctx[(0 : Gantry)].flight = some (flightOf .place 7) ∧
      (ends .pick none false).ctx[(0 : Gantry)].flight = some (flightOf .pick 7) ∧
      carrying.ctx[(0 : Gantry)].flight = none ∧ feed.vac[(0 : Gantry)].level = false ∧
      gripping.vac[(0 : Gantry)].level = true := by decide +kernel

/-! ### Witnesses: orders and stations -/

/-- The line computer writes an order record. -/
abbrev Orders (f : Feed) (ws : List Word) : Prop := OwnerRecord (on f) 0 0x1000#24 (good ws) .order

theorem witness_OrderWriteIsRefusedRetriedOrAdmitted :
    Orders feed (orderWords 0 0 1 2 2500 0) ∧ Orders feed (orderWords 7 0 1 8 200 0) ∧
      Orders { feed with orders := List.replicate 32 { order with tag := 9 } } (orderWords 7 0 1 2 2500 9) ∧
      (OrderRec.ofWords (dataOf (good (orderWords 7 1 2 8 3200 9)))) = ⟨7, 1, 2, 8, 3200, 9⟩ :=
  ⟨by decide +kernel, by decide +kernel, by decide +kernel, by decide +kernel⟩

theorem witness_OrderCountsFollowThePanels :
    let worn : Feed := { feed with orders := [{ order with mispicks := 2, remaining := 1 }] }
    let faulted : Feed := { feed with orders := [{ order with mispicks := 3, fault := some .lost }] }
    orders.findOrder 7 = some order ∧ order.mispicks < 2 ∧ order.fault = none ∧ 1 < order.remaining ∧
      worn.findOrder 7 = some { order with mispicks := 2, remaining := 1 } ∧
      faulted.findOrder 7 = some { order with mispicks := 3, fault := some .lost } ∧ feed.findOrder 7 = none := by
  decide +kernel

theorem witness_RemovalAndStationHeads :
    orders.orders = [] ++ order :: [] ∧ order.tag ≠ 6 ∧ order.dep ≠ 6 ∧ { order with dep := 6 }.dep = 6 ∧
      order.station = 1 ∧ ∀ x ∈ orders.orders, x.station ≠ 2 := by decide +kernel

/-- A control command of the line computer in a state. -/
abbrev Commands (f : Feed) : Prop := OwnerControl (on f) 0 0x200180#24

theorem witness_CancelOrderInRun :
    (Commands feed ∧ feed.part = .run ∧ (ctl 0 none).opA.toNat = 0 ∧ (feed.findOrder 7).isSome = false) ∧
      (Commands (ends .pick none false) ∧ ((ends .pick none false).findOrder 7).isSome = true ∧
        (ends .pick none false).ctx[(0 : Gantry)].flight = some (flightOf .pick 7)) ∧
      (Commands carrying ∧ (carrying.findOrder (ctl 7 none).opA.toNat).isSome = true ∧
        carrying.ctx[(0 : Gantry)].flight = none ∧ carrying.ctx[(1 : Gantry)].flight = none) :=
  ⟨by decide +kernel, by decide +kernel, by decide +kernel⟩

/-- The feed with station 0 changed. -/
def st0 (h : Station → Station) : Feed := feed.modStation 0 h
/-- Station 0's saw writes a report. -/
abbrev Reports (f : Feed) (ws : List Word) : Prop := OwnerRecord (on f) 3 0x3000#24 (good ws) (.report 0)

theorem witness_ReportWriteActsByTheSawState :
    (Reports feed (reportWords 1 1) ∧ (ReportRec.ofWords (dataOf (good (reportWords 1 1)))) = ⟨true, .clear⟩ ∧
        feed.stations[(0 : StationId)].reportToggle = true) ∧
      (Reports (st0 fun x => { x with state := .loaded }) (reportWords 0 2) ∧
        (ReportRec.ofWords (dataOf (good (reportWords 0 2)))) = ⟨false, .busy⟩) ∧
      (Reports (st0 fun x => { x with state := .feeding }) (reportWords 0 1) ∧ cfg.guardTime[(0 : StationId)] ≠ 0) ∧
      (OwnerRecord (on (feed.modStation 1 fun x => { x with state := .feeding })) 3 0x3010#24 (good (reportWords 0 1))
          (.report 1) ∧ cfg.guardTime[(1 : StationId)] = 0) ∧
      (Reports (st0 fun x => { x with state := .fault }) (reportWords 0 0) ∧
        (ReportRec.ofWords (dataOf (good (reportWords 0 0)))) = ⟨false, .fault⟩) :=
  ⟨by decide +kernel, by decide +kernel, by decide +kernel, by decide +kernel, by decide +kernel⟩

/-- A PRESENT change to a level is due at station 0. -/
def presentChange (state : StState) (level : Bool) (saw : Saw) : State :=
  { on (st0 fun x => { x with state := state, present := !level, presentSince := some 99980, saw := saw }) with
    presentRaw := #v[level, false, false, false, false, false] }
abbrev PresentDue (s : State) (level : Bool) : Prop :=
  s.resetLow = false ∧ s.feed.part = .run ∧ s.feed.stationOn 0 = true ∧ s.feed.stations[(0 : StationId)].present ≠ level ∧
    s.presentRaw[(0 : StationId)] = level ∧ s.feed.stations[(0 : StationId)].presentSince = some 99980 ∧
    s.feed.cfg.filterTime ≤ (s.feed.time - 99980).toNat

theorem witness_PresentChangeActsByTheStationState :
    (∀ x ∈ [StState.empty, .guard, .assigned, .landing, .feeding, .blocked, .fault],
        PresentDue (presentChange x true .clear) true ∧
          (presentChange x true .clear).feed.stations[(0 : StationId)].state = x) ∧
      ∀ x ∈ [StState.assigned, .loaded, .feeding, .blocked, .fault],
        PresentDue (presentChange x false .clear) false ∧ PresentDue (presentChange x false .busy) false ∧
          (presentChange x false .clear).feed.stations[(0 : StationId)].state = x :=
  ⟨by decide +kernel, by decide +kernel⟩

theorem witness_TimeFiltersAndTimers :
    let late := with0 (moving .travel 0) feed
    let landing := st0 fun x => { x with state := .landing, landingStart := some 98000 }
    let guarded := st0 fun x => { x with state := .guard, guardStart := some 99000 }
    (late.ctx[(0 : Gantry)].state = .moving ∧ late.ctx[(0 : Gantry)].timer = true ∧
        1000 * cfg.moveTimeout ≤ (late.time - (flightOf .travel 0).start).toNat) ∧
      (landing.stations[(0 : StationId)].state = .landing ∧ cfg.landingTimeout ≤ (landing.time - 98000).toNat) ∧
      (guarded.stations[(0 : StationId)].state = .guard ∧
        cfg.guardTime[(0 : StationId)] ≤ (guarded.time - 99000).toNat) ∧
      ((on feed).vacRaw[(0 : Gantry)] ≠ true ∧ (on feed).presentRaw[(0 : StationId)] ≠ true) := by decide +kernel

theorem witness_UnblockStationInRun :
    let blocked (present : Bool) (saw : Saw) :=
      st0 fun x => { x with state := .blocked, present := present, saw := saw, reason := some .removed }
    (Commands feed ∧ cfg.stationCount ≤ (ctl 3 none).opA.toNat ∧ cfg.stationCount ≤ 6) ∧
      (0 = (ctl 0 none).opA.toNat ∧ 0 < cfg.stationCount ∧ feed.stations[(0 : StationId)].state = .empty) ∧
      Commands (blocked true .clear) ∧ Commands (blocked false .fault) ∧ Commands (blocked false .clear) ∧
      (let f := (ends .place (panel .order) true).modStation 1 fun x => { x with state := .fault, saw := .clear }
       Commands f ∧ f.ctx[(0 : Gantry)].flight = some (flightOf .place 7) ∧
         f.stations[(1 : StationId)].present = false) :=
  ⟨by decide +kernel, by decide +kernel, by decide +kernel, by decide +kernel, by decide +kernel, by decide +kernel⟩

/-! ### Witnesses: recovery -/

theorem witness_HaltAndFurtherFault :
    (with0 haltedCtx feed).ctx[(0 : Gantry)].halt = some ⟨.badMove, some .range, 0, 0⟩ := by decide +kernel

/-- Gantry 0 halted, with a carry, a grip and a move in flight or none. -/
def stopped (carry : Option Carry) (vac flight : Bool) : Feed :=
  with0 (fun c => { haltedCtx c with carry := carry, flight := if flight then some (flightOf .travel 0) else none })
    { out 1 with vac := #v[⟨vac, none⟩, ⟨false, none⟩] }

theorem witness_ClearHaltInRun_answers :
    (Commands feed ∧ feed.part = .run ∧ cfg.gantryCount ≤ (ctl 2 none).opA.toNat ∧ cfg.gantryCount ≤ 2) ∧
      (0 = (ctl 0 none).opA.toNat ∧ 0 < cfg.gantryCount ∧ feed.ctx[(0 : Gantry)].state ≠ .halted) ∧
      (Commands (stopped none false true) ∧ (ctl 0 none).bGiven = false ∧
        (stopped none false true).ctx[(0 : Gantry)].flight.isSome = true) ∧
      (Commands (stopped none false false) ∧ (ctl 0 (some 32000)).bGiven = true ∧
        cfg.railLen ≤ (ctl 0 (some 32000)).opB.toNat) :=
  ⟨by decide +kernel, by decide +kernel, by decide +kernel, by decide +kernel⟩

/-- The settled context of each kind, and the table's answer to the reseat at a position. -/
theorem witness_ClearHaltInRun_settled :
    ((stopped none true false).ctx[(0 : Gantry)].carry = none ∧ (stopped none true false).vac[(0 : Gantry)].level = true) ∧
      orderTag (stopped (panel .order) false true).ctx[(0 : Gantry)].carry = some 7 ∧
      orderTag (stopped (panel .orphan) false false).ctx[(0 : Gantry)].carry = none ∧
      (stopped none false false).ctx[(0 : Gantry)].carry.isSome = (stopped none false false).vac[(0 : Gantry)].level ∧
      (stopped none false false).ctx[(0 : Gantry)].pos = some 5000 ∧
      reseat rail 0 (cfg.occupancy 20000 none) = .conflict ∧ reseat rail 0 (cfg.occupancy 31999 none) = .crossed ∧
      reseat rail 0 (cfg.occupancy 0 none) ≠ .conflict ∧ reseat rail 0 (cfg.occupancy 0 none) ≠ .crossed := by
  decide +kernel

/-- Gantry 0 halted with a panel of the order, under which a fall of VAC has been due for one millisecond or is not due
yet by one. -/
def falling (since : Time) : Feed := { stopped (panel .order) true false with vac := #v[⟨true, some since⟩, ⟨false, none⟩] }

theorem witness_ClearHaltInRun_fallDue :
    (falling 99979).ctx[(0 : Gantry)].carry.isSome = true ∧ (falling 99979).ctx[(0 : Gantry)].flight = none ∧
      (falling 99979).vac[(0 : Gantry)].level = true ∧ (falling 99979).vac[(0 : Gantry)].since = some 99979 ∧
      cfg.filterTime ≤ ((falling 99979).time - 99979).toNat ∧ ¬cfg.filterTime ≤ ((falling 99981).time - 99981).toNat := by
  decide +kernel

/-- R128, row 1: the fall due is read by the grip step, with the order effect; one not due leaves the carry. -/
theorem test_clearHalt_fallDue :
    ((after (exec (.clearHalt 0 0x200180 (ctl 0 none)) (on (falling 99979)))).map fun f =>
        (f.ctx[(0 : Gantry)].state, f.ctx[(0 : Gantry)].carry, f.orders.map (·.fault))) =
        some (.idle, none, [some .lost]) ∧
      ((after (exec (.clearHalt 0 0x200180 (ctl 0 (some 5000))) (on (falling 99981)))).map fun f =>
        (f.ctx[(0 : Gantry)].carry, f.orders.map (·.fault))) = some (panel .order, [none]) := by decide +kernel

/-- R128, row 1: the fall taken after that CLEAR_HALT has no effect. -/
theorem test_vacFall_afterClearHalt :
    ((after (exec (.vacFall 0) { on ((clearHalt 0 none (falling 99979)).1) with vacRaw := #v[false, false] })).map fun f =>
      (f.ctx[(0 : Gantry)].state, f.events.map (·.code))) = some (.idle, [.orderFaulted, .haltCleared]) := by
  decide +kernel

theorem witness_ResetFeedInRun : Commands carrying ∧ carrying.part = .run ∧
    carrying.ctx[(0 : Gantry)].carry = panel .order := by decide +kernel

/-! ### Witnesses: the bus path -/

theorem witness_MoveReadsAreHeldAndOwnerWritesPosted :
    (PortFree (on feed) ∧ Inside (on feed) 0x2000#24 4 (some (.move 0)) ∧ (1 : MasterTag) = cfg.driveTag[(0 : Gantry)]) ∧
      (Inside (on feed) 0x2004#24 4 (some (.move 0)) ∧ (0x2004#24).toNat % 16 ≠ 0) ∧
      (0 : MasterTag) ≠ cfg.driveTag[(0 : Gantry)] ∧
      OwnerRecord (on feed) 0 0x2070#24 (good (moveWords 1 0 0 0)) (.move 0) ∧
      (PortFree (on feed) ∧ Inside (on feed) 0x2000F0#24 (good [1, 2, 3, 4]).length (some .settings) ∧
        ∀ w ∈ good [1, 2, 3, 4], parityOk w = true) :=
  ⟨by decide +kernel, by decide +kernel, by decide +kernel, by decide +kernel, by decide +kernel⟩

/-- A transaction presented to a free port in RUN. -/
abbrev Meets (t : Txn) : Prop := PortFree (on feed) ∧ t.addrParityOk = true ∧ 1 ≤ t.op.len ∧ t.op.len ≤ 16

theorem witness_PortRefusesByItsFirstFailingTest :
    (∀ t ∈ [readTxn 1 0x1001#24 1, readTxn 1 0xFFFFFC#24 2, readTxn 1 0x0FFC#24 2], Meets t) ∧
      ((0x1001#24).toNat % 4 ≠ 0 ∧ (on feed).areaAt 0x1001 = some .order) ∧
      (2 ^ 24 < (0xFFFFFC#24).toNat + 4 * 2 ∧ ∀ i < 2, (on feed).areaAt ((0xFFFFFC#24).toNat + 4 * i) = none) ∧
      ((on feed).areaAt 0x0FFC = none ∧ (on feed).areaAt 0x1000 = some .order) ∧
      (Inside (on feed) 0x4000#24 1 (some .event) ∧ (on feed).owner .event = none) ∧
      (Inside (on feed) 0x2100#24 4 (some (.completion 0)) ∧ (on feed).owner (.completion 0) = some 1) ∧
      (Inside (on feed) 0x1000#24 3 (some .order) ∧ (on feed).owner .order = some 0) ∧
      parityOk ⟨0, true⟩ = false ∧ Inside (on feed) 0x2010#24 1 (some (.move 0)) :=
  ⟨by decide +kernel, by decide +kernel, by decide +kernel, by decide +kernel, by decide +kernel, by decide +kernel,
    by decide +kernel, by decide +kernel, by decide +kernel⟩

/-- The part with an open posted write. -/
def openPosted : Posted := ⟨0, .order, 0x1000, good [1, 2, 3, 4], 8, false⟩
def posting (t : Option Txn) : State :=
  { on feed with
    bus := { Bus.reset with posted := some openPosted, onBus := t, turn := none
                            port := some ⟨.posted, 0x1000, .write openPosted.words, false⟩ } }

theorem witness_ForwardRawIsHeld :
    (PortFree (on feed) ∧ Inside (on feed) 0x8000#24 16 none) ∧ Inside (on feed) 0x4000#24 4 (some .event) ∧
      Inside (on feed) 0x2000#24 1 (some (.move 0)) ∧ (0 : MasterTag) ≠ cfg.driveTag[(0 : Gantry)] ∧
      ((posting none).resetLow = false ∧ (posting none).bus.onBus = none ∧ (posting none).bus.held = none ∧
        (posting none).bus.posted.isSome = true) ∧
      { on feed with resetLow := true }.resetLow = true ∧ State.reset.feed.part ≠ .run :=
  ⟨by decide +kernel, by decide +kernel, by decide +kernel, by decide +kernel, by decide +kernel, by decide, by decide⟩

/-- The port busy with an operation for a held transaction. -/
def holding (op : TxnOp) (discard : Bool) : State :=
  { on feed with
    bus := { Bus.reset with held := some ⟨⟨0, true, 0x8000, op⟩, none, 8⟩, turn := none
                            port := some ⟨.raw, 0x8000, op, discard⟩ } }

theorem witness_HeldTransactionEndsByAnswerOrBound :
    (holding (.read 2) false).bus.port = some ⟨.raw, 0x8000, .read 2, false⟩ ∧
      (holding (.write [⟨1, true⟩]) false).bus.port = some ⟨.raw, 0x8000, .write [⟨1, true⟩], false⟩ ∧
      ((holding (.read 2) false).bus.held.map (·.bound)) = some 8 ∧
      (holding (.read 2) true).bus.port = some ⟨.raw, 0x8000, .read 2, true⟩ ∧
      (holding (.write [⟨1, true⟩]) true).bus.port = some ⟨.raw, 0x8000, .write [⟨1, true⟩], true⟩ ∧
      (fetching 0 feed).bus.port = some (fetchOp 0) := by decide +kernel

def event : Event := ⟨.halted, 0, 3, 0⟩
def queued : Feed := { feed with events := [event] }
/-- An operation in progress that its bound has ended. -/
def lateOp (k : OpKind) (f : Feed) : State :=
  { on f with bus := { Bus.reset with turn := none, port := some ⟨k, 0x4000, .write (good event.words), true⟩ } }

theorem witness_PostedWriteIsClosedByAnswerOrBound :
    ((posting none).bus.posted = some openPosted ∧ (posting none).bus.onBus = none ∧ openPosted.bound ≤ 8 ∧
        (posting none).bus.port = some ⟨.posted, openPosted.addr, .write openPosted.words, false⟩) ∧
      (posting (some (readTxn 1 0x2000#24 4))).bus.onBus = some (readTxn 1 0x2000#24 4) ∧
      (posting (some (readTxn 1 0x2000#24 4))).resetLow = false ∧ (posting (some (readTxn 1 0x2000#24 4))).bus.held = none ∧
      (lateOp .posted feed).bus.port = some ⟨.posted, 0x4000, .write (good event.words), true⟩ ∧
      (posting (some (readTxn 1 0x2000#24 4))).bus.answer = none := by decide +kernel

/-- The port free, the turn decided or not. -/
def idlePort (turn : Option Claimant) (f : Feed) : State :=
  { on f with bus := { Bus.reset with posted := some openPosted, turn := turn } }
/-- A raw write with bad parity held, with the port free. -/
def forwarding (turn : Option Claimant) (f : Feed) : State :=
  { on f with bus := { Bus.reset with held := some ⟨⟨0, true, 0x8000, .write [⟨1, false⟩]⟩, none, 8⟩, turn := turn } }

theorem witness_PortGrantGoesInTurn :
    (idlePort (some .forwarder) feed).nextOp .forwarder = some ⟨.posted, 0x1000, .write openPosted.words, false⟩ ∧
      ((idlePort (some .own) queued).nextOp .own).isSome = true ∧
      ((idlePort none queued).nextOp .forwarder).isSome = true ∧ (idlePort none queued).bus.port = none ∧
      (State.reset.nextOp .own).isSome = true ∧
      (forwarding (some .forwarder) feed).nextOp .forwarder = some ⟨.raw, 0x8000, .write [⟨1, false⟩], false⟩ ∧
      parityOk ⟨1, false⟩ = false ∧ parityOk ⟨1, true⟩ = true ∧
      (forwarding (some .own) feed).nextOp .own = none ∧ (on queued).nextOp .forwarder = none ∧
      ((on queued).nextOp .own).isSome = true ∧ (on feed).nextOp .forwarder = none ∧ (on feed).nextOp .own = none := by
  decide +kernel

/-- The record writer's operation in progress. -/
def recording (f : Feed) (k : OpKind) : State :=
  { on f with bus := { Bus.reset with turn := none, port := some ⟨k, 0x4000, .write (good event.words), false⟩ } }

theorem witness_RecordWritesEndByAnswerOrBound :
    (recording feed (.notice 1)).bus.port = some ⟨.notice 1, 0x4000, .write (good event.words), false⟩ ∧
      (recording queued .event).bus.port = some ⟨.event, 0x4000, .write (good event.words), false⟩ ∧
      (recording queued .event).feed.events = [event] ∧ (recording queued .event).boundNow ≤ 8 ∧
      (lateOp (.notice 1) feed).bus.port = some ⟨.notice 1, 0x4000, .write (good event.words), true⟩ ∧
      (lateOp .event queued).bus.port = some ⟨.event, 0x4000, .write (good event.words), true⟩ := by decide +kernel

/-! ### Witnesses: control, status, settings -/

theorem witness_ControlCommandsByPartState :
    Commands { feed with part := .start } ∧ Commands { feed with part := .locked } ∧ Commands feed ∧
      (6 < (7 : BitVec 8).toNat) ∧ 6 < (255 : BitVec 8).toNat := by decide +kernel

theorem witness_AckEventsInRun :
    let f := { feed with prod := 2, cons := 14 }
    Commands f ∧ f.part = .run ∧ 2 ^ f.cfg.ringLog ≤ (ctl 16 none).opA.toNat ∧
      (2 + 16 - 14) % 16 < (3 + 16 - 14) % 16 ∧ (2 + 16 - 14) % 16 ≤ (2 + 16 - 14) % 16 ∧
      f.prod < 2 ^ f.cfg.ringLog := by decide +kernel

theorem witness_ReloadSettingsInRunAndLocked :
    (Commands orders ∧ orders.part = .run ∧ orders.orders ≠ []) ∧
      (Commands feed ∧ feed.orders = [] ∧
        (∀ g : Gantry, feed.ctx[g].flight.isSome = false ∧ feed.ctx[g].carry.isSome = false) ∧
        ∀ st : StationId, feed.stations[st].state = .empty) ∧
      (Commands { feed with part := .locked } ∧ { feed with part := PartState.locked }.part = .locked) :=
  ⟨by decide +kernel, by decide +kernel, by decide +kernel⟩

theorem witness_StatusReadAnswersOneSnapshotOfTheState :
    PortFree (on feed) ∧ (0x200100#24).toNat = (on feed).anchor + 256 + 4 * 0 ∧
      (0x20017C#24).toNat = (on feed).anchor + 256 + 4 * 31 ∧ (0 : MasterTag) = (on feed).lcTag ∧
      feed.orders.length ≤ 32 ∧ feed.prod < 256 ∧ feed.counts.refused ≤ 65535 ∧ feed.gantryOn 1 = true ∧
      feed.stationOn 2 = true ∧ State.reset.feed.part ≠ .run := by decide +kernel

/-- A context and a station whose fields the status record shows, and disabled ones. -/
theorem witness_StatusReadAnswersOneSnapshotOfTheState_fields :
    HoldsRun feed.rail 0 ⟨4, 5⟩ ∧ HoldsNone freeRail 0 ∧ orders.headOf 1 = some order ∧ orders.headOf 0 = none ∧
      (with0 haltedCtx feed).ctx[(0 : Gantry)].halt = some ⟨.badMove, some .range, 0, 0⟩ ∧
      carrying.ctx[(0 : Gantry)].carry = some ⟨7, 2500, .order⟩ ∧
      (ends .pick none false).ctx[(0 : Gantry)].flight = some (flightOf .pick 7) ∧
      (st0 fun x => { x with reason := some .removed }).stations[(0 : StationId)].reason = some .removed ∧
      { feed with cfg := { cfg with gantryCount := 1 } }.gantryOn 1 = false ∧ feed.stationOn 3 = false :=
  ⟨⟨by decide, by decide, every_index (t := feed.rail) (by decide +kernel) fun i h => by
      rw [h]
      refine ⟨nofun, fun hh => ?_⟩
      have := of_decide_eq_true hh
      have h45 : i = 4 ∨ i = 5 := by
        simp only at this
        omega
      rcases h45 with rfl | rfl <;> exact absurd h (by decide +kernel)⟩,
    fun i => by rw [cellAt_freeRail]; decide, by decide +kernel⟩

/-- The words of gantry 0 halted with a panel, of station 1's head, and of the counters' last word. -/
theorem test_snapshot :
    let f := with0 (fun c => { haltedCtx c with carry := panel .order, flight := some (flightOf .place 7) }) orders
    let w (k : Nat) := wordAt (snapshot (on { f with flags := ⟨true, false, true, false, false, true⟩ })) k
    w 2 = 0x2033 ∧ w 3 = 0x31001388 ∧ w 4 = 0x049C4007 ∧ w 5 = 0x05001388 ∧ w 16 = 0x00070000 ∧ w 24 = 0x250000 := by
  decide +kernel

theorem witness_EventsAndCounters :
    State.reset.feed.part ≠ .run ∧ feed.part = .run ∧
      2 ^ feed.cfg.ringLog - 1 ≤ (15 + 2 ^ feed.cfg.ringLog - 0) % 2 ^ feed.cfg.ringLog + 0 ∧
      (feed.prod + 2 ^ feed.cfg.ringLog - feed.cons) % 2 ^ feed.cfg.ringLog + feed.events.length <
        2 ^ feed.cfg.ringLog - 1 ∧
      8 ≤ (List.replicate 8 event).length ∧ feed.events.length < 8 := by decide +kernel

/-- The words of an image of the settings above, four bursts of them, and the image sealed with a check. -/
def image0 : List Word :=
  [pack [(0, 16, 0x5762), (16, 8, 1)], pack [(0, 8, 2), (8, 8, 3), (16, 8, 2), (24, 8, 32)],
    pack [(0, 16, 1000), (16, 16, 500)], pack [(0, 16, 200), (16, 16, 3200)], 3000, 28000, 0, 0, 11000, 16000, 21000,
    0, 0, 0, 31000, 1000]
def image1 : List Word :=
  [1000, 0, pack [(0, 16, 2000), (16, 8, 60), (24, 8, 20)], pack [(0, 8, 2), (8, 8, 8), (16, 3, 1), (20, 3, 2)],
    pack [(0, 3, 3), (4, 3, 3), (8, 3, 4)], 0x8001000, 0x8002000, 0x8002080, 0x8002100, 0x8002180, 0x3000, 0x3010,
    0x3020, 0, 0, 0]
def image2 : List Word := [0x3100, 0x3110, 0x3120, 0, 0, 0, 0x4004000, 0, 0, 0, 0, 0, 0, 0, 0, 0]
def image3 : List Word := List.replicate 15 0
def sealedWith (c : Word) : List Word := image0 ++ image1 ++ image2 ++ image3 ++ [c]

theorem crc_append (a b : List Word) : crc16 (bytesOf (a ++ b)) = (bytesOf b).foldl crcByte (crc16 (bytesOf a)) := by
  simp [crc16, bytesOf]

theorem test_imageCrc : crc16 (bytesOf (image0 ++ image1 ++ image2 ++ image3)) = 2548 := by
  have h0 : crc16 (bytesOf image0) = 34766 := by decide +kernel
  have h1 : (bytesOf image1).foldl crcByte 34766 = 22181 := by decide +kernel
  have h2 : (bytesOf image2).foldl crcByte 22181 = 29240 := by decide +kernel
  have h3 : (bytesOf image3).foldl crcByte 29240 = 2548 := by decide +kernel
  rw [crc_append, crc_append, crc_append, h0, h1, h2, h3]

theorem test_imageSettings : Settings.ofImage (sealedWith 2548) = { cfg with magic := 0x5762, version := 1 } := by
  decide +kernel

theorem crcOk_sealedWith (c : Word) : crcOk (sealedWith c) = decide (2548 = field c 0 16) := by
  have h : (sealedWith c).take 63 = image0 ++ image1 ++ image2 ++ image3 := rfl
  unfold crcOk
  rw [h, test_imageCrc]
  rfl

theorem test_imageIsTaken : validate 0x200000 0 (sealedWith 2548) = .none := by
  unfold validate
  rw [test_imageSettings, crcOk_sealedWith]
  decide +kernel

theorem test_imageOfABadCheck : validate 0x200000 0 (sealedWith 2547) = .crc := by
  unfold validate
  rw [crcOk_sealedWith]
  decide +kernel

/-- A settings burst in progress. -/
def loading (image : List Word) : State :=
  { State.reset with
    base := 2
    bus := { Bus.reset with turn := none, image := image, port := some ⟨.settings, 0x2000C0, .read 16, false⟩ } }

/-- The fourth burst of the sealed image, as job memory returns it. -/
def lastBurst (c : Word) : MemAnswer := .done [⟨15, PWord.good c⟩]

theorem witness_SettingsBurstsLoadTheImage :
    (loading []).bus.port = some ⟨.settings, 0x2000C0, .read 16, false⟩ ∧
      goodData ((loading []).readAnswer ⟨.settings, 0x2000C0, .read 16, false⟩ .fault) = none ∧
      goodData ((loading []).readAnswer ⟨.settings, 0x2000C0, .read 16, false⟩ (lastBurst 2548)) =
        some (image3 ++ [2548]) ∧
      goodData ((loading []).readAnswer ⟨.settings, 0x2000C0, .read 16, false⟩ (lastBurst 2547)) =
        some (image3 ++ [2547]) ∧
      { loading [] with bus := { (loading []).bus with port := some ⟨.settings, 0x2000C0, .read 16, true⟩ } }.bus.port =
        some ⟨.settings, 0x2000C0, .read 16, true⟩ ∧
      ([] ++ (image3 ++ [2548])).length < 64 ∧ 64 ≤ (image0 ++ image1 ++ image2 ++ (image3 ++ [2548])).length ∧
      (loading []).anchor = 0x200000 ∧ (loading []).lcTag = 0 := by decide +kernel

/-- The settings above pass every test of the image; one field changed fails a test of each code. -/
theorem witness_ImageValidationTakesTheFirstFailingTest :
    (rangeOk cfg = true ∧ geometryOk cfg = true ∧ overlapOk 0x200000 cfg = true ∧ tagsOk 0 cfg = true) ∧
      (rangeOk { cfg with bound := 1 } = false ∧ rangeOk { cfg with bound := 65 } = false ∧
        rangeOk { cfg with orderWin := ⟨0x1000, 3⟩ } = false ∧ rangeOk { cfg with orderWin := ⟨0, 3⟩ } = false ∧
        rangeOk { cfg with ringBase := 0xFFFFF0 } = false ∧ rangeOk { cfg with ringBase := 0xFFFF00 } = true) ∧
      (geometryOk { cfg with bayPos := 32000 } = false ∧ geometryOk { cfg with orderWin := ⟨0, 8⟩ } = false) ∧
      (overlapOk 0x200000 { cfg with ringBase := 0x0F10 } = false ∧ overlapOk 0x200000 { cfg with ringBase := 0x0F00 } = true ∧
        overlapOk 0x200000 { cfg with ringBase := 0x2001F0 } = false ∧
        overlapOk 0x200000 { cfg with ringBase := 0x200200 } = true) ∧
      tagsOk 1 cfg = false ∧ tagsOk 3 cfg = true ∧ tagsOk 0 { cfg with sawTag := #v[3, 3, 2, 0, 0, 0] } = false ∧
      (examined cfg (.report 2) = some ⟨0x3020, 1⟩ ∧ examined cfg (.report 3) = none) :=
  ⟨by decide +kernel, by decide +kernel, by decide +kernel, by decide +kernel, by decide +kernel, by decide +kernel,
    by decide +kernel, by decide +kernel, by decide +kernel⟩

theorem witness_EnteringLockedAndRun :
    let kept := { feed with cause := .reload }
    (kept.cause = .reload ∧ (0 : Gantry).val < kept.cfg.gantryCount ∧ (0 : Gantry).val < cfg.gantryCount) ∧
      feed.cause ≠ .reload ∧ { cfg with gantryCount := 1 }.gantryCount ≤ (1 : Gantry).val ∧
      cfg.stationCount ≤ (3 : StationId).val ∧ (2 : StationId).val < cfg.stationCount ∧ 1 ≤ cfg.ringLog := by
  decide +kernel

theorem witness_ResetAssertAndRelease :
    (holding (.read 2) false).bus.port = some ⟨.raw, 0x8000, .read (TxnOp.read 2).len, false⟩ ∧
      (holding (.write [⟨1, true⟩]) false).bus.port = some ⟨.raw, 0x8000, .write [⟨1, true⟩], false⟩ ∧
      (holding (.read 2) false).bus.posted = none ∧ (idlePort none feed).bus.posted = some openPosted := by
  decide +kernel

/-! ### Witnesses: the laws -/

/-- Gantry 0 MOVING in RUN, gantry 1 IDLE, an order with a panel out, a station ASSIGNED to the PLACE in flight. -/
def lawful : Feed :=
  (with0 (fun c => { moving .place 7 c with carry := panel .order }) (out 1)).modStation 1
    fun x => { x with state := .assigned }

/-- Every state's step answers a next state. -/
theorem steps (s : State) : ∃ t, step s = .next t := by
  unfold step
  split
  · exact ⟨s, rfl⟩
  · rename_i c rest _
    obtain ⟨u, hu⟩ := exec_eq_done c { s with pending := rest }
    exact ⟨_, hu⟩

theorem holdsRun_of {t : Rail} {g : Gantry} {r : Span} (hr : r.west ≤ r.east) (he : r.east < 64)
    (h : ∀ i < 64, cellAt t i = .held g ↔ r.has i = true) : HoldsRun t g r := by
  refine ⟨hr, he, fun i => ?_⟩
  by_cases hi : i < 64
  · exact h i hi
  · have hf : cellAt t i = .free := by unfold cellAt; rw [dif_neg hi]
    rw [hf]
    refine ⟨nofun, fun hh => ?_⟩
    have := of_decide_eq_true hh
    omega

theorem witness_EveryStepKeepsTheRailLaw : RailInv lawful := by
  refine ⟨⟨.inr ⟨⟨4, 5⟩, holdsRun_of (by decide) (by decide) (by decide +kernel)⟩,
    .inr ⟨⟨19, 20⟩, holdsRun_of (by decide) (by decide) (by decide +kernel)⟩, ?_⟩, ?_⟩
  · refine every_index (t := lawful.rail) (fun i hi => every_index (t := lawful.rail) ?_ ?_) ?_
    · have : ∀ i < 64, ∀ j < 64, cellAt lawful.rail i = .held 0 → cellAt lawful.rail j = .held 1 → i < j := by
        decide +kernel
      exact this i hi
    · exact fun j hf _ hj => absurd (hf.symm.trans hj) (by decide)
    · exact fun i hf j hi _ => absurd (hf.symm.trans hi) (by decide)
  · intro _ g m hm
    match g with
    | 0 =>
      cases (show some (flightOf .place 7) = some m from hm)
      decide +kernel
    | 1 => cases (show (none : Option Flight) = some m from hm)

theorem witness_EveryStepKeepsTheIdleSpan : IdleHolds lawful ∧ lawful.ctx[(1 : Gantry)].state = .idle := by
  refine ⟨fun _ g hg => ?_, by decide +kernel⟩
  match g with
  | 0 => exact absurd hg (by decide +kernel)
  | 1 => exact ⟨20000, by decide +kernel, by decide +kernel⟩

theorem witness_EveryStepKeepsTheContextLaw : ∀ g : Gantry, CtxLaw lawful.ctx[g] := by
  intro g
  match g with
  | 0 => exact ⟨rfl, rfl, rfl, rfl⟩
  | 1 => exact ⟨rfl, rfl, rfl, rfl⟩

theorem witness_EveryStepKeepsTheRingLaw : RingLaw { lawful with prod := 2, cons := 5, events := [event, event] } := by
  unfold RingLaw
  decide

theorem witness_EveryStepKeepsThePanelLaw : OrderInv lawful := by
  refine ⟨?_, ?_, ⟨?_, ?_, ?_, ?_⟩, ⟨?_, ?_, ?_, ?_⟩⟩
  · unfold ListLaw
    decide +kernel
  · unfold PanelLaw
    decide +kernel
  · intro tag h
    cases (show some 7 = some tag from h)
    exact ⟨_, List.mem_singleton_self _, rfl⟩
  · intro m hm hk
    cases (show some (flightOf .place 7) = some m from hm)
    cases hk
  · exact fun h => absurd h (by decide +kernel)
  · exact fun h => absurd h (by decide +kernel)
  · intro tag h
    cases (show (none : Option Nat) = some tag from h)
  · intro m hm
    cases (show (none : Option Flight) = some m from hm)
  · exact fun _ => rfl
  · exact fun h => absurd h (by decide +kernel)

theorem witness_EveryStepKeepsTheStationLaw :
    StationInv lawful ∧ lawful.stations[(1 : StationId)].state = .assigned := by
  unfold StationInv StationLaw
  decide +kernel

theorem witness_EveryStepKeepsMemoryCanonical :
    (State.reset.mem.writeWords 0x1000 [⟨0x01020300, true⟩]).wf = true := by decide +kernel

/-! ### One small step of the commands -/

theorem test_judgeMove_accept : reply (exec (.judgeMove (answer (moveWords 1 0 0 0))) (fetching 0 feed)) =
    some (.done, [1, 0, 0x05000001, 100000]) := by decide +kernel

theorem test_judgeMove_waitsForRail : reply (exec (.judgeMove (answer (moveWords 1 0 0 25000))) (fetching 0 feed)) =
    some (.done, [8, 25000, 0x13131612, 100000]) := by decide +kernel

theorem test_completionWrite_taken :
    stamped (exec (.completionWrite 1 0x2100 (good (endWords 2 0 1 5000))) (on (ends .pick none true))) = some 1 ∧
      ((after (exec (.completionWrite 1 0x2100 (good (endWords 2 0 1 5000))) (on (ends .pick none true)))).map
        fun f => f.ctx[(0 : Gantry)].carry) = some (panel .order) := by decide +kernel

theorem test_orderWrite_admitted :
    stamped (exec (.orderWrite 0 0x1000 (good (orderWords 7 0 1 2 2500 0))) (on feed)) = some 1 ∧
      ((after (exec (.orderWrite 0 0x1000 (good (orderWords 7 0 1 2 2500 0))) (on feed))).map (·.orders)) =
        some [order] := by decide +kernel

theorem test_reportWrite_duplicate :
    stamped (exec (.reportWrite 3 0x3000 (good (reportWords 1 2))) (on feed)) = some 3 := by decide +kernel

theorem test_clearHalt_done :
    stamped (exec (.clearHalt 0 0x200180 (ctl 0 (some 0))) (on (stopped none false false))) = some 1 ∧
      ((after (exec (.clearHalt 0 0x200180 (ctl 0 (some 0))) (on (stopped none false false)))).map
        fun f => (List.range 64).filter fun i => cellAt f.rail i == .held 0) = some [0] := by decide +kernel

theorem test_cancelOrder_orphans :
    stamped (exec (.cancelOrder 0 0x200180 (ctl 7 none)) (on carrying)) = some 1 ∧
      ((after (exec (.cancelOrder 0 0x200180 (ctl 7 none)) (on carrying))).map
        fun f => (f.orders, f.ctx[(0 : Gantry)].carry)) = some ([], panel .orphan) := by decide +kernel

theorem test_controlCommand_results :
    stamped (exec (.unblockStation 0 0x200180 (ctl 0 none)) (on feed)) = some 4 ∧
      stamped (exec (.ackEvents 0 0x200180 (ctl 16 none)) (on feed)) = some 11 ∧
      stamped (exec (.resetFeed 0 0x200180 (ctl 0 none)) (on feed)) = some 1 ∧
      stamped (exec (.reloadSettings 0 0x200180 (ctl 0 none)) (on orders)) = some 2 ∧
      stamped (exec (.unknownCommand 0 0x200180 9 (ctl 0 none)) (on feed)) = some 13 := by decide +kernel

/-- Word 0 of the record in RUN: HOLD and ALERT low, no orders; word 1, the part's time. -/
theorem test_statusRead : reply (exec (.statusRead 5 0x200100 2) (on feed)) = some (.done, [3, 100000]) := by
  decide +kernel

theorem test_forwardRaw_refused :
    reply (exec (.forwardRaw ⟨5, false, 0x1000, .read 4⟩) (on feed)) = some (.refuse, []) ∧
      reply (exec (.ownerWritePosted 5 0x2000 (good [1, 2, 3, 4])) (on feed)) = some (.refuse, []) ∧
      reply (exec (.moveRead 1 0x2004) (on feed)) = some (.refuse, []) := by decide +kernel

theorem test_port_answers :
    reply (exec (.heldMemoryAnswer (.done [])) (holding (.read 2) false)) = some (.done, [0, 0]) ∧
      reply (exec (.latencyExpiry 8) (holding (.read 2) false)) = some (.retry, []) ∧
      stamped (exec (.postedWriteAnswer (.done [])) (posting none)) = none ∧
      ((after (exec (.postedWriteTimeout 8) (posting none))).map fun f => f.counts.memFault) = some 1 := by
  decide +kernel

/-- A raw write with bad parity is counted as it is granted, not at its answer; a late answer counts nothing. -/
theorem test_passedParity :
    ((after (exec .portGrant (forwarding (some .forwarder) feed))).map fun f => f.counts.passedParity) = some 1 ∧
      ((after (exec (.heldMemoryAnswer (.done [])) (holding (.write [⟨1, false⟩]) false))).map (·.counts)) =
        some feed.counts ∧
      ((after (exec (.heldMemoryAnswer .fault) (holding (.write [⟨1, false⟩]) true))).map (·.counts)) =
        some feed.counts ∧
      ((after (exec (.eventWriteAnswer .fault) (lateOp .event queued))).map fun f => (f.counts, f.events)) =
        some (feed.counts, [event]) := by decide +kernel

theorem test_records_end :
    ((after (exec (.eventWriteAnswer (.done [])) (recording queued .event))).map fun f => (f.prod, f.events)) =
        some (1, []) ∧
      ((after (exec (.noticeWriteAnswer .fault) (recording feed (.notice 1)))).map fun f => f.counts.memFault) =
        some 1 ∧
      ((after (exec (.recordWriteTimeout 8) (recording queued .event))).map fun f => f.prod) = some 0 := by
  decide +kernel

theorem test_settings_fail :
    ((after (exec (.settingsBurst .fault) (loading []))).map fun f => (f.part, f.loadFault)) =
        some (.locked, .memory) ∧
      ((after (exec (.settingsBurstTimeout 64) (loading []))).map (·.part)) = some .locked := by decide +kernel

theorem test_time_and_pins :
    ((after (exec .partTimeTick (on { feed with time := 0xFFFFFFFF }))).map (·.time)) = some 0 ∧
      ((after (exec (.vacFall 0) (vacChange false carrying))).map fun f => f.ctx[(0 : Gantry)].carry) = some none ∧
      ((after (exec (.presentRise 0) (presentChange .landing true .clear))).map
        fun f => f.stations[(0 : StationId)].state) = some .loaded := by decide +kernel

theorem witness_StepRunsTheFrontCommand : State.reset.pending = [] := rfl

/-- The command at the front of the queue runs first. -/
theorem test_step_fifo :
    (match step { State.reset with pending := [.partTimeTick, .resetAssert] } with
      | .next t => t.feed.time == 1 && t.pending == [.resetAssert]
      | .fault _ => false
      | .refused _ => false) = true := by decide +kernel

end Sys2Proof.Tests
end

section
/-! SUPPORT. What one step can do to the feed side: a list of acts, one for each place where a command reaches the feed
tables, and that every step is a chain of them. A law of the feed side that every act keeps is kept by every step. -/

namespace Sys2Proof.Machine

/-- One act on the feed side, with the guard under which a command performs it. -/
inductive FeedAct (f : Feed) : Feed → Prop
  | count (c : Counter) : FeedAct f (f.count c)
  | raise (code : EventCode) (n d : Nat) : FeedAct f (f.raise code n d)
  | clearFlags : FeedAct f { f with flags := .clear }
  | enlist (r : OrderRec) (h : admission r f = .admitted) : FeedAct f (f.enlist r)
  | complete (g : Gantry) (r : CompletionRec) : FeedAct f (complete g r f).1
  | report (st : StationId) (r : ReportRec) : FeedAct f (report st r f).1
  | judge (g : Gantry) (data : Option (List Word)) : FeedAct f (judge g data f).1
  | clearHalt (a : Nat) (b : Option Nat) (h : f.part = .run) : FeedAct f (clearHalt a b f).1
  | cancelOrder (a : Nat) (h : f.part = .run) : FeedAct f (cancelOrder a f).1
  | unblockStation (a : Nat) (h : f.part = .run) : FeedAct f (unblockStation a f).1
  | ackEvents (a : Nat) (h : f.part = .run) : FeedAct f (ackEvents a f).1
  | resetFeed (h : f.part = .run) : FeedAct f (resetFeed f)
  | reload (h : f.part = .run → reloadBusy f = false) : FeedAct f f.reload
  | endNotice (st : StationId) (faulted : Bool) : FeedAct f (f.endNotice st faulted)
  | endEvent (faulted : Bool) : FeedAct f (f.endEvent faulted)
  | enterLocked (code : LoadFault) : FeedAct f (f.enterLocked code)
  | enterRun (anchor : Nat) (lcTag : MasterTag) (ws : List Word) (vacRaw : Vector Bool 2) (presentRaw : Vector Bool 6)
      (h : validate anchor lcTag ws = .none) : FeedAct f (f.enterRun (.ofImage ws) vacRaw presentRaw)
  | powerOn : FeedAct f f.powerOn
  | reset : FeedAct f Feed.reset
  | vacRaw (g : Gantry) (since : Option Time) : FeedAct f (f.setVac g ⟨f.vac[g].level, since⟩)
  | vacFall (g : Gantry) (h : f.part = .run) (on : f.gantryOn g = true) :
      FeedAct f ((f.setVac g ⟨false, none⟩).vacFallen g)
  | vacRise (g : Gantry) (h : f.part = .run) (on : f.gantryOn g = true) :
      FeedAct f ((f.setVac g ⟨true, none⟩).vacRisen g)
  | presentRaw (st : StationId) (since : Option Time) :
      FeedAct f (f.modStation st fun x => { x with presentSince := since })
  | presentRise (st : StationId) (h : f.part = .run) : FeedAct f ((f.setPresent st true).presentRisen st)
  | presentFall (st : StationId) (h : f.part = .run) : FeedAct f ((f.setPresent st false).presentFallen st)
  | moveTimeout (g : Gantry) (h : f.part = .run) (due : f.moveDue g = true) :
      FeedAct f (f.haltCtx g .moveTimeout none)
  | landingTimeout (st : StationId) (h : f.part = .run) (at_landing : f.stations[st].state = .landing) :
      FeedAct f (f.faultStation st .landingTimeout)
  | guardExpiry (st : StationId) (h : f.part = .run) (at_guard : f.stations[st].state = .guard) :
      FeedAct f (f.guardEnded st)
  | tick : FeedAct f { f with time := f.time + 1 }

/-- A chain of acts on the feed side, of any length. -/
abbrev FeedActs : Feed → Feed → Prop := Relation.ReflTransGen FeedAct

theorem FeedAct.acts {f f' : Feed} (h : FeedAct f f') : FeedActs f f' := .single h

/-! ### Arrivals at the upstream port -/

theorem acts_refuse (s : State) : FeedActs s.feed s.refuse.feed := (FeedAct.count .refused).acts

theorem acts_refuseWindow (t : Txn) (why : Refuse) (a : Area) (s : State) :
    FeedActs s.feed (s.refuseWindow t why a).feed :=
  (acts_refuse s).tail (.raise ..)

theorem acts_takeOrder (t : Txn) (ws : List Word) (s : State) : FeedActs s.feed (s.takeOrder t ws).feed := by
  unfold State.takeOrder
  split
  · exact (acts_refuse s).tail (.raise ..)
  · exact .refl
  case _ h => exact (FeedAct.enlist _ h).acts

theorem acts_reloadSettings (f : Feed) : FeedActs f (reloadSettings f).1 := by
  unfold reloadSettings
  split
  · exact .refl
  case _ hbusy => exact (FeedAct.reload fun hp => by simpa [hp] using hbusy).acts

theorem acts_commandLocked (c : ControlFields) (f : Feed) : FeedActs f (commandLocked c f).1 := by
  unfold commandLocked
  split
  · exact acts_reloadSettings f
  all_goals exact .refl

theorem acts_commandRun (c : ControlFields) {f : Feed} (hp : f.part = .run) : FeedActs f (commandRun c f).1 := by
  unfold commandRun
  split
  · exact (FeedAct.clearHalt _ _ hp).acts
  · exact (FeedAct.cancelOrder _ hp).acts
  · exact (FeedAct.unblockStation _ hp).acts
  · exact (FeedAct.ackEvents _ hp).acts
  · simpa only using (FeedAct.resetFeed hp).acts
  · exact acts_reloadSettings f
  · exact .refl

/-- A control command that is taken acts by its row of R157. -/
theorem acts_command {c : ControlFields} {f f' : Feed} {res : Result} (h : command c f = some (f', res)) :
    FeedActs f f' := by
  unfold command at h
  split at h
  · cases h
  · have hacts := acts_commandLocked c f
    rwa [Option.some.inj h] at hacts
  case _ hp =>
    have hacts := acts_commandRun c hp
    rwa [Option.some.inj h] at hacts

@[simp] theorem State.startLoad_feed (took : Bool) (s : State) : (s.startLoad took).feed = s.feed := by
  unfold State.startLoad; split <;> rfl

theorem acts_takeControl (t : Txn) (ws : List Word) (s : State) : FeedActs s.feed (s.takeControl t ws).feed := by
  unfold State.takeControl
  split
  · exact .refl
  case _ h =>
    rw [State.post_feed, State.startLoad_feed]
    exact acts_command h

theorem acts_takeWrite (t : Txn) (a : Area) (ws : List Word) (s : State) :
    FeedActs s.feed (s.takeWrite t a ws).feed := by
  unfold State.takeWrite
  split
  case h_2 => exact acts_takeControl t ws s
  case h_3 => exact acts_takeOrder t ws s
  case h_5 => exact (FeedAct.complete ..).acts
  case h_6 => exact (FeedAct.report ..).acts
  all_goals exact .refl

theorem acts_readStatus (t : Txn) (s : State) : FeedActs s.feed (s.readStatus t).feed := by
  simp only [State.readStatus]
  split
  · exact FeedAct.clearFlags.acts
  · exact .refl

theorem acts_arrive (t : Txn) (s : State) : FeedActs s.feed (s.arrive t).feed := by
  unfold State.arrive State.carry
  split
  · exact (FeedAct.count .addrParity).acts.trans (acts_refuse (s.onFeed (Feed.count .addrParity)))
  · unfold State.refuseAlign
    split
    · exact acts_refuseWindow ..
    · exact acts_refuse s
  · exact acts_refuseWindow ..
  · exact acts_takeWrite ..
  · exact acts_readStatus ..
  · exact .refl
  · exact .refl

theorem acts_present (t : Txn) (s : State) : FeedActs s.feed (s.present t).feed := by
  unfold State.present
  split_ifs
  · exact .refl
  · exact .refl
  · exact .refl
  · exact acts_arrive t s.unanswered

theorem acts_arriveNext (s : State) : FeedActs s.feed s.arriveNext.feed := by
  unfold State.arriveNext
  split
  · exact acts_arrive _ { s with bus := { s.bus with onBus := none } }
  · exact .refl

/-! ### The memory port -/

theorem acts_passParity (ws : List PWord) (f : Feed) : FeedActs f (f.passParity ws) := by
  unfold Feed.passParity
  split
  · exact .refl
  · exact (FeedAct.count .passedParity).acts

theorem acts_grant (s : State) : FeedActs s.feed s.grant.feed := by
  unfold State.grant
  split
  · exact .refl
  · split
    · split
      · exact acts_passParity ..
      · exact .refl
    · exact .refl

@[simp] theorem State.memAfter_feed (o : PortOp) (a : MemAnswer) (s : State) : (s.memAfter o a).feed = s.feed := by
  unfold State.memAfter; split <;> [rfl; rfl; (split <;> rfl)]

@[simp] theorem State.endOp_feed (o : PortOp) (a : MemAnswer) (s : State) : (s.endOp o a).feed = s.feed := by
  simp [State.endOp]

/-- An answer taken does to the feed side what it leads to does. -/
theorem acts_answered (p : OpKind → Bool) (a : MemAnswer) {next : PortOp → State → State}
    (h : ∀ o s, FeedActs s.feed (next o s).feed) (s : State) : FeedActs s.feed (s.answered p a next).feed := by
  unfold State.answered
  split
  · exact .refl
  case _ o _ =>
    have hnext := h o (s.endOp o a)
    split <;> rw [State.endOp_feed] at *
    exact hnext

theorem acts_answerRaw (o : PortOp) (a : MemAnswer) (ws : Option (List PWord)) (s : State) :
    FeedActs s.feed (s.answerRaw o a ws).feed := by
  unfold State.answerRaw
  split
  · exact acts_refuse s.unhold
  · split
    · exact acts_passParity ..
    · exact .refl

theorem acts_memFault (n : Nat) (a : Area) (f : Feed) : FeedActs f (f.memFault n a) :=
  (FeedAct.count .memFault).acts.tail (.raise ..)

theorem acts_closePosted (faulted : Bool) (s : State) : FeedActs s.feed (s.closePosted faulted).feed := by
  unfold State.closePosted
  split
  · exact .refl
  case _ p _ =>
    let closed : State := { s with bus := { s.bus with posted := none } }
    simp only
    split
    · exact (acts_memFault ..).trans (acts_arriveNext (closed.onFeed (Feed.memFault p.tag.toNat p.area)))
    · exact acts_arriveNext closed

theorem acts_failLoad (code : LoadFault) (s : State) : FeedActs s.feed (s.failLoad code).feed :=
  (FeedAct.enterLocked code).acts

theorem acts_takeBurst (data : Option (List Word)) (s : State) : FeedActs s.feed (s.takeBurst data).feed := by
  unfold State.takeBurst
  split
  · exact acts_failLoad .memory s
  · split
    · exact .refl
    · unfold State.endLoad
      split
      case _ h => exact (FeedAct.enterRun _ _ _ _ _ h).acts
      · exact acts_failLoad _ s

theorem acts_afterFetch (a : MemAnswer) (o : PortOp) (s : State) : FeedActs s.feed (s.afterFetch a o).feed := by
  unfold State.afterFetch
  split
  · exact (FeedAct.judge ..).acts
  all_goals exact .refl

theorem acts_afterNotice (a : MemAnswer) (o : PortOp) (s : State) : FeedActs s.feed (s.afterNotice a o).feed := by
  unfold State.afterNotice
  split
  · exact (FeedAct.endNotice ..).acts
  all_goals exact .refl

/-! ### Bounds that expire -/

theorem acts_expireHeld (us : Nat) (s : State) : FeedActs s.feed (s.expireHeld us).feed := by
  unfold State.expireHeld
  split
  · exact .refl
  · split
    · exact .refl
    · exact (FeedAct.count .latencyRetry).acts

theorem acts_expirePosted (us : Nat) (s : State) : FeedActs s.feed (s.expirePosted us).feed := by
  unfold State.expirePosted
  split
  · exact .refl
  · split
    · exact .refl
    · exact acts_closePosted true (s.discardOp (· == .posted))

theorem acts_expireRecord (us : Nat) (s : State) : FeedActs s.feed (s.expireRecord us).feed := by
  unfold State.expireRecord
  split
  · exact .refl
  · split
    · exact .refl
    · split
      · exact (FeedAct.endNotice (f := s.feed) _ true).acts
      · exact (FeedAct.endEvent (f := s.feed) true).acts
      all_goals exact .refl

theorem acts_expireBurst (us : Nat) (s : State) : FeedActs s.feed (s.expireBurst us).feed := by
  unfold State.expireBurst
  split
  · exact .refl
  · split
    · exact .refl
    · exact acts_failLoad .memory (s.discardOp (· == .settings))

/-! ### RESET_N -/

@[simp] theorem State.retryInHand_feed (s : State) : s.retryInHand.feed = s.feed := by
  unfold State.retryInHand; split <;> rfl

@[simp] theorem State.abandonOp_feed (s : State) : s.abandonOp.feed = s.feed := by
  unfold State.abandonOp; split <;> [(split <;> rfl); rfl]

@[simp] theorem State.abandonPosted_feed (s : State) : s.abandonPosted.feed = s.feed := by
  unfold State.abandonPosted; split <;> [(split <;> rfl); rfl]

/-! ### Commands -/

theorem acts_done {f : Feed} {u t : State} (h : FeedActs f u.feed) (ht : done u = .next t) : FeedActs f t.feed := by
  obtain rfl : settle u = t := by simpa [done] using ht
  exact h

/-- A command taken only when it is due acts then, and otherwise changes nothing (log 10). -/
theorem acts_if_due {b : Bool} {s u t : State} (h : b = true → FeedAct s.feed u.feed)
    (ht : (if b then done u else done s) = .next t) : FeedActs s.feed t.feed := by
  split at ht
  case isTrue hb => exact acts_done (h hb).acts ht
  case isFalse => exact acts_done .refl ht

theorem part_of_live {s : State} (h : s.live = true) : s.feed.part = .run := by
  simp only [State.live, Bool.and_eq_true, decide_eq_true_eq] at h
  exact h.2

theorem of_vacDue {s : State} {g : Gantry} {level : Bool} (h : s.vacDue g level = true) :
    s.feed.part = .run ∧ s.feed.gantryOn g = true := by
  simp only [State.vacDue, Bool.and_eq_true, and_assoc] at h
  obtain ⟨hlive, hon, -⟩ := h
  exact ⟨part_of_live hlive, hon⟩

theorem of_presentDue {s : State} {st : StationId} {level : Bool} (h : s.presentDue st level = true) :
    s.feed.part = .run := by
  simp only [State.presentDue, Bool.and_eq_true, and_assoc] at h
  exact part_of_live h.1

/-- Every command does to the feed side a chain of acts. -/
theorem acts_exec {c : Instr} {s t : State} (h : exec c s = .next t) : FeedActs s.feed t.feed := by
  cases c with
  | moveRead | completionWrite | orderWrite | reportWrite | clearHalt | cancelOrder | unblockStation | ackEvents
  | resetFeed | reloadSettings | unknownCommand | statusRead | ownerWritePosted | forwardRaw =>
    exact acts_done (acts_present _ s) h
  | judgeMove a => exact acts_done (acts_answered _ a (acts_afterFetch a) s) h
  | heldMemoryAnswer a => exact acts_done (acts_answered _ a (fun _ _ => acts_answerRaw ..) s) h
  | postedWriteAnswer a => exact acts_done (acts_answered _ a (fun _ _ => acts_closePosted ..) s) h
  | noticeWriteAnswer a => exact acts_done (acts_answered _ a (acts_afterNotice a) s) h
  | eventWriteAnswer a => exact acts_done (acts_answered _ a (fun _ _ => (FeedAct.endEvent _).acts) s) h
  | settingsBurst a => exact acts_done (acts_answered _ a (fun _ _ => acts_takeBurst ..) s) h
  | latencyExpiry us => exact acts_done (acts_expireHeld us s) h
  | postedWriteTimeout us => exact acts_done (acts_expirePosted us s) h
  | recordWriteTimeout us => exact acts_done (acts_expireRecord us s) h
  | settingsBurstTimeout us => exact acts_done (acts_expireBurst us s) h
  | portGrant => exact acts_done (acts_grant s) h
  | resetAssert => exact acts_done (by simpa using FeedAct.powerOn.acts) h
  | resetRelease => exact acts_done FeedAct.reset.acts h
  | vacRawChange g level =>
    simp only [exec, execVacRawChange] at h
    split at h
    · exact acts_done .refl h
    · exact acts_done (FeedAct.vacRaw g _).acts h
  | presentRawChange st level =>
    simp only [exec, execPresentRawChange] at h
    split at h
    · exact acts_done .refl h
    · exact acts_done (FeedAct.presentRaw st _).acts h
  | vacFall g => exact acts_if_due (fun hb => .vacFall g (of_vacDue hb).1 (of_vacDue hb).2) h
  | vacRise g => exact acts_if_due (fun hb => .vacRise g (of_vacDue hb).1 (of_vacDue hb).2) h
  | presentRise st => exact acts_if_due (fun hb => .presentRise st (of_presentDue hb)) h
  | presentFall st => exact acts_if_due (fun hb => .presentFall st (of_presentDue hb)) h
  | moveTimeout g =>
    refine acts_if_due (fun hb => ?_) h
    simp only [Bool.and_eq_true, and_assoc] at hb
    exact .moveTimeout g (part_of_live hb.1) hb.2.2
  | landingTimeout st =>
    refine acts_if_due (fun hb => ?_) h
    simp only [Bool.and_eq_true, decide_eq_true_eq, and_assoc] at hb
    exact .landingTimeout st (part_of_live hb.1) hb.2.2.1
  | guardExpiry st =>
    refine acts_if_due (fun hb => ?_) h
    simp only [Bool.and_eq_true, decide_eq_true_eq, and_assoc] at hb
    exact .guardExpiry st (part_of_live hb.1) hb.2.2.1
  | partTimeTick => exact acts_done FeedAct.tick.acts h

/-- Every step does to the feed side a chain of acts. -/
theorem acts_step {s t : State} (h : step s = .next t) : FeedActs s.feed t.feed := by
  unfold step at h
  split at h
  · obtain rfl : s = t := by simpa using h
    exact .refl
  case _ rest _ => exact acts_exec (s := { s with pending := rest }) h

/-- What a chain keeps: whatever each of its links keeps. -/
theorem kept_of_chain {α : Type} {R : α → α → Prop} (P : α → Prop) (keeps : ∀ x y, R x y → P x → P y) {x y : α}
    (h : Relation.ReflTransGen R x y) (hx : P x) : P y := by
  induction h with
  | refl => exact hx
  | tail _ hlink ih => exact keeps _ _ hlink ih

/-- A law of the feed side that every act keeps is kept by every step. -/
theorem kept_of_step (P : Feed → Prop) (keeps : ∀ f f' : Feed, FeedAct f f' → P f → P f') {s t : State}
    (hs : P s.feed) (h : step s = .next t) : P t.feed :=
  kept_of_chain P keeps (acts_step h) hs

end Sys2Proof.Machine
end

section
/-! SUPPORT. The floor of the feed side: the part state, the settings, the rail table and the contexts, which is all
that the laws of chapter 1 speak of, and the many operations on events, orders and stations that leave the floor
alone. -/

namespace Sys2Proof.Machine

/-- What the laws of the rail speak of (R17, R18). -/
structure Floor where
  part : PartState
  cfg : Settings
  rail : Rail
  ctx : Vector Ctx 2

/-- The floor of a feed side. -/
def Feed.floor (f : Feed) : Floor := ⟨f.part, f.cfg, f.rail, f.ctx⟩

/-! ### Events, orders and stations leave the floor alone -/

@[simp] theorem Feed.count_floor (c : Counter) (f : Feed) : (f.count c).floor = f.floor := rfl

@[simp] theorem Feed.raise_floor (c : EventCode) (n d : Nat) (f : Feed) : (f.raise c n d).floor = f.floor := by
  simp [Feed.floor]

@[simp] theorem Feed.setVac_floor (g : Gantry) (x : Filter) (f : Feed) : (f.setVac g x).floor = f.floor := rfl

@[simp] theorem Feed.modOrder_floor (tag : Nat) (h : Order → Order) (f : Feed) :
    (f.modOrder tag h).floor = f.floor := rfl

@[simp] theorem Feed.modStation_floor (st : StationId) (h : Station → Station) (f : Feed) :
    (f.modStation st h).floor = f.floor := rfl

@[simp] theorem Feed.lowerOut_floor (tag : Nat) (f : Feed) : (f.lowerOut tag).floor = f.floor := rfl

@[simp] theorem Feed.faultOrder_floor (tag : Nat) (why : OrderFault) (f : Feed) :
    (f.faultOrder tag why).floor = f.floor := by
  unfold Feed.faultOrder; split <;> [(split <;> simp); rfl]

@[simp] theorem Feed.lostPanel_floor (tag : Nat) (f : Feed) : (f.lostPanel tag).floor = f.floor := by
  simp [Feed.lostPanel]

@[simp] theorem Feed.placedPanel_floor (tag : Nat) (f : Feed) : (f.placedPanel tag).floor = f.floor := by
  unfold Feed.placedPanel
  split
  · split
    · exact Feed.raise_floor ..
    · rfl
  · rfl

@[simp] theorem Feed.mispicked_floor (tag : Nat) (f : Feed) : (f.mispicked tag).floor = f.floor := by
  unfold Feed.mispicked; split <;> [(simp only; split <;> simp); rfl]

@[simp] theorem Feed.blockStation_floor (st : StationId) (why : StReason) (f : Feed) :
    (f.blockStation st why).floor = f.floor := by simp [Feed.blockStation]

@[simp] theorem Feed.faultStation_floor (st : StationId) (why : StReason) (f : Feed) :
    (f.faultStation st why).floor = f.floor := by simp [Feed.faultStation]

@[simp] theorem Feed.toGuard_floor (st : StationId) (f : Feed) : (f.toGuard st).floor = f.floor := rfl

@[simp] theorem Feed.landed_floor (st : StationId) (f : Feed) : (f.landed st).floor = f.floor := by
  unfold Feed.landed; split <;> simp

@[simp] theorem Feed.returned_floor (st : StationId) (f : Feed) : (f.returned st).floor = f.floor := by
  unfold Feed.returned; split <;> [(split <;> simp); rfl]

@[simp] theorem Feed.deliveryUnknown_floor (st : StationId) (f : Feed) : (f.deliveryUnknown st).floor = f.floor := by
  unfold Feed.deliveryUnknown; split <;> simp

theorem Feed.onOrder_floor {h : Nat → Feed → Feed} (hh : ∀ tag f, (h tag f).floor = f.floor) (k : Option Carry)
    (f : Feed) : (f.onOrder k h).floor = f.floor := by
  unfold Feed.onOrder; split <;> [exact hh _ f; rfl]

theorem atStation_floor {h : StationId → Feed → Feed} (hh : ∀ st f, (h st f).floor = f.floor) (m : Flight) (f : Feed) :
    (atStation m h f).floor = f.floor := by
  unfold atStation; split <;> [exact hh _ f; rfl]

@[simp] theorem closeStation_floor (m : Flight) (f : Feed) : (closeStation m f).floor = f.floor := by
  unfold closeStation; split <;> simp

@[simp] theorem closeOrder_floor (m : Flight) (vac : Bool) (k : Option Carry) (f : Feed) :
    (closeOrder m vac k f).floor = f.floor := by
  unfold closeOrder
  split
  · rfl
  · split
    · rfl
    · exact Feed.lowerOut_floor ..
    · exact Feed.onOrder_floor Feed.lostPanel_floor ..
    · exact Feed.onOrder_floor Feed.lowerOut_floor ..

/-- The order and station effects of a clean ending leave the floor alone (R58 to R61). -/
@[simp] theorem settleEffects_floor (g : Gantry) (m : Flight) (e : Ending) (vac : Bool) (k : Option Carry) (f : Feed) :
    (settleEffects g m e vac k f).floor = f.floor := by
  unfold settleEffects
  split
  · rfl
  · unfold settlePick
    split <;> [(split <;> simp); simp]
  · unfold settlePlace
    split <;> [(split <;> simp [atStation_floor, Feed.onOrder_floor]); simp [atStation_floor]]
  · unfold settleReject
    split
    · split
      · exact Feed.raise_floor ..
      · exact Feed.onOrder_floor Feed.lowerOut_floor ..
    · rfl

@[simp] theorem Feed.acceptOrder_floor (g : Gantry) (k : MoveKind) (o : Option Order) (f : Feed) :
    (f.acceptOrder g k o).floor = f.floor := by
  unfold Feed.acceptOrder; split <;> rfl

@[simp] theorem Feed.reported_floor (st : StationId) (saw : Saw) (f : Feed) : (f.reported st saw).floor = f.floor := by
  unfold Feed.reported; split <;> split <;> simp

@[simp] theorem report_floor (st : StationId) (r : ReportRec) (f : Feed) : (report st r f).1.floor = f.floor := by
  unfold report; split <;> simp

@[simp] theorem Feed.presentRisen_floor (st : StationId) (f : Feed) : (f.presentRisen st).floor = f.floor := by
  unfold Feed.presentRisen; split <;> simp

@[simp] theorem Feed.presentFallen_floor (st : StationId) (f : Feed) : (f.presentFallen st).floor = f.floor := by
  unfold Feed.presentFallen
  split
  case h_6 => split <;> simp
  all_goals simp

@[simp] theorem Feed.resetStations_floor (f : Feed) : f.resetStations.floor = f.floor := by
  have one (f : Feed) (st : StationId) : (f.resetStation st).floor = f.floor := by
    unfold Feed.resetStation; split <;> simp
  simp [Feed.resetStations, one]

@[simp] theorem unblockStation_floor (a : Nat) (f : Feed) : (unblockStation a f).1.floor = f.floor := by
  unfold unblockStation; split <;> [(split <;> rfl); rfl]

@[simp] theorem ackEvents_floor (a : Nat) (f : Feed) : (ackEvents a f).1.floor = f.floor := by
  unfold ackEvents; split_ifs <;> rfl

@[simp] theorem Feed.memFault_floor (n : Nat) (a : Area) (f : Feed) : (f.memFault n a).floor = f.floor := by
  simp [Feed.memFault]

@[simp] theorem Feed.endNotice_floor (st : StationId) (b : Bool) (f : Feed) : (f.endNotice st b).floor = f.floor := by
  simp only [Feed.endNotice]
  split
  · exact Feed.memFault_floor ..
  · rfl

@[simp] theorem Feed.endEvent_floor (b : Bool) (f : Feed) : (f.endEvent b).floor = f.floor := by
  unfold Feed.endEvent
  split
  · rfl
  · split
    · simp only
      split
      · rfl
      · exact Feed.memFault_floor ..
    · rfl

@[simp] theorem Feed.mutualTest_floor (g : Gantry) (kind : Blocking) (f : Feed) :
    (f.mutualTest g kind).floor = f.floor := by
  unfold Feed.mutualTest
  split
  · exact Feed.raise_floor ..
  · rfl

@[simp] theorem Feed.settleFall_floor (g : Gantry) (f : Feed) : (f.settleFall g).floor = f.floor := by
  unfold Feed.settleFall; split <;> simp

end Sys2Proof.Machine
end

section
/-! SUPPORT. What one act can do to the rail table and the contexts, and that this keeps the law of the rail (R17) and
that an IDLE gantry holds its occupancy span (R18). -/

namespace Sys2Proof.Machine

/-! ### The moves of the rail -/

/-- Of the 64 cells a gantry holds exactly those of a run. -/
def HoldsOn (t : Rail) (g : Gantry) (r : Span) : Prop := ∀ i < 64, cellAt t i = .held g ↔ r.has i = true

/-- A gantry holds the same cells in both tables. -/
def SameHeld (g : Gantry) (t t' : Rail) : Prop := ∀ i, cellAt t' i = .held g ↔ cellAt t i = .held g

/-- Two contexts are alike to the laws of the rail. -/
structure Ctx.Alike (cfg : Settings) (c c' : Ctx) : Prop where
  state : c'.state = c.state
  flight : c'.flight = c.flight
  pos : c'.pos = c.pos
  len : cfg.carryLen c'.carry = cfg.carryLen c.carry

/-- What one move of the rail does to the cells and the context of one gantry. -/
inductive CtxMove (cfg : Settings) (g : Gantry) (t t' : Rail) (c c' : Ctx) : Prop
  | still (held : SameHeld g t t') (alike : Ctx.Alike cfg c c')
  | halted (held : SameHeld g t t') (state : c'.state = .halted)
      (flight : ∀ m, c'.flight = some m → c.flight = some m)
  | accepted (m : Flight) (held : HoldsOn t' g ⟨m.west, m.east⟩) (state : c'.state = .moving)
      (flight : c'.flight = some m)
  | seated (p : Nat) (held : HoldsOn t' g (cfg.occupancy p c'.carry)) (pos : c'.pos = some p)
      (flight : c'.flight = none)

/-- One move of the rail: within the settings in force, or a fresh table with no gantry at work. -/
inductive RailMove (f f' : Feed) : Prop
  | within (part : f'.part = f.part) (cfg : f'.cfg = f.cfg) (law : RailLaw f.rail → RailLaw f'.rail)
      (ctx : ∀ g : Gantry, CtxMove f.cfg g f.rail f'.rail f.ctx[g] f'.ctx[g])
  | fresh (rail : f'.rail = freeRail)
      (ctx : f'.part = .run → ∀ g : Gantry, f'.ctx[g].state = .halted ∧ f'.ctx[g].flight = none)

/-- A chain of moves of the rail. -/
abbrev RailMoves : Feed → Feed → Prop := Relation.ReflTransGen RailMove

theorem RailMove.moves {f f' : Feed} (h : RailMove f f') : RailMoves f f' := .single h

/-! ### What a move of the rail keeps -/

theorem occupancy_congr {c : Settings} {k k' : Option Carry} (h : c.carryLen k' = c.carryLen k) (p : Nat) :
    c.occupancy p k' = c.occupancy p k := by
  unfold Settings.occupancy
  rw [h]

/-- A move of the rail keeps the law of the rail with its in-flight moves (R17). -/
theorem railInv_of_railMove {f f' : Feed} (h : RailMove f f') (hf : RailInv f) : RailInv f' := by
  obtain ⟨hlaw, hheld⟩ := hf
  cases h with
  | fresh rail ctx =>
    refine ⟨rail ▸ railLaw_freeRail, fun hrun g m hm => ?_⟩
    rw [(ctx hrun g).2] at hm
    cases hm
  | within part _ law ctx =>
    refine ⟨law hlaw, fun hrun g m hm i hi hw he => ?_⟩
    have hbefore := hheld (part ▸ hrun) g
    cases ctx g with
    | still held alike => exact (held i).mpr (hbefore m (alike.flight ▸ hm) i hi hw he)
    | halted held _ flight => exact (held i).mpr (hbefore m (flight m hm) i hi hw he)
    | accepted m' held _ flight =>
      obtain rfl : m' = m := Option.some.inj (flight.symm.trans hm)
      exact (held i hi).mpr ((Span.has_iff _ i).mpr ⟨hw, he⟩)
    | seated _ _ _ flight => cases flight.symm.trans hm

/-- A move of the rail keeps that an IDLE context holds exactly its occupancy span (R18). -/
theorem idleHolds_of_railMove {f f' : Feed} (h : RailMove f f') (hf : IdleHolds f) : IdleHolds f' := by
  intro hrun g hidle
  cases h with
  | fresh _ ctx => cases hidle.symm.trans (ctx hrun g).1
  | within part cfg _ ctx =>
    rw [cfg]
    cases ctx g with
    | still held alike =>
      obtain ⟨p, hpos, hcells⟩ := hf (part ▸ hrun) g (alike.state ▸ hidle)
      refine ⟨p, alike.pos.trans hpos, fun i hi => ?_⟩
      rw [occupancy_congr alike.len]
      exact (held i).trans (hcells i hi)
    | halted _ state _ => cases hidle.symm.trans state
    | accepted _ _ state _ => cases hidle.symm.trans state
    | seated p held pos _ => exact ⟨p, pos, held⟩

/-! ### Contexts -/

namespace Ctx.Alike

theorem refl (cfg : Settings) (c : Ctx) : Ctx.Alike cfg c c := ⟨rfl, rfl, rfl, rfl⟩

theorem trans {cfg : Settings} {c c' c'' : Ctx} (h : Ctx.Alike cfg c c') (h' : Ctx.Alike cfg c' c'') :
    Ctx.Alike cfg c c'' :=
  ⟨h'.state.trans h.state, h'.flight.trans h.flight, h'.pos.trans h.pos, h'.len.trans h.len⟩

theorem of_eq {cfg : Settings} {c c' : Ctx} (h : c' = c) : Ctx.Alike cfg c c' := h ▸ refl cfg c

end Ctx.Alike

theorem eq_or_other (g g' : Gantry) : g' = g ∨ g' = other g := by
  fin_cases g <;> fin_cases g' <;> decide

theorem modCtx_own (g : Gantry) (h : Ctx → Ctx) (f : Feed) : (f.modCtx g h).ctx[g] = h f.ctx[g] := by
  simp

theorem modCtx_apart {g g' : Gantry} (hne : g' ≠ g) (h : Ctx → Ctx) (f : Feed) :
    (f.modCtx g h).ctx[g'] = f.ctx[g'] := by
  have : g.val ≠ g'.val := fun he => hne (Fin.ext he.symm)
  simp [this]

/-- A change of the table changes a context in no more than its blocked-by-other flag (R47). -/
theorem setRail_alike (t : Rail) (f : Feed) (g : Gantry) : Ctx.Alike f.cfg f.ctx[g] (f.setRail t).ctx[g] := by
  have h : (f.setRail t).ctx[g] = if changedOf (other g) f.rail t then f.ctx[g].unblocked else f.ctx[g] := by simp
  rw [h]
  split
  · exact ⟨rfl, rfl, rfl, rfl⟩
  · exact .refl _ _

/-! ### Beside one gantry's context -/

/-- Beside gantry g's own context nothing is changed that the laws of the rail see. -/
structure Aside (g : Gantry) (f f' : Feed) : Prop where
  part : f'.part = f.part
  cfg : f'.cfg = f.cfg
  held : ∀ g', SameHeld g' f.rail f'.rail
  apart : Ctx.Alike f.cfg f.ctx[other g] f'.ctx[other g]

namespace Aside

theorem of_floor {f f' : Feed} (g : Gantry) (h : f'.floor = f.floor) : Aside g f f' := by
  obtain ⟨part, cfg, rail, ctx⟩ := Floor.mk.inj h
  exact ⟨part, cfg, fun _ _ => by rw [rail], .of_eq (by rw [ctx])⟩

theorem trans {g : Gantry} {f f' f'' : Feed} (h : Aside g f f') (h' : Aside g f' f'') : Aside g f f'' :=
  ⟨h'.part.trans h.part, h'.cfg.trans h.cfg, fun g' i => (h'.held g' i).trans (h.held g' i),
    h.apart.trans (h.cfg ▸ h'.apart)⟩

theorem modCtx (g : Gantry) (h : Ctx → Ctx) (f : Feed) : Aside g f (f.modCtx g h) :=
  ⟨rfl, rfl, fun _ _ => .rfl, .of_eq (modCtx_apart (other_ne g) h f)⟩

theorem setRail (g : Gantry) {t : Rail} {f : Feed} (h : ∀ g', SameHeld g' f.rail t) : Aside g f (f.setRail t) :=
  ⟨rfl, rfl, h, setRail_alike t f (other g)⟩

end Aside

theorem sameHeld_unreserve (t : Rail) (g g' : Gantry) : SameHeld g' t (unreserve t g) := fun i => by
  rw [cellAt_unreserve]
  split
  · simp [*]
  · rfl

theorem sameHeld_reserve (t : Rail) (g g' : Gantry) : SameHeld g' t (reserve t g) := fun i => by
  rcases cellAt_reserve t g i with h | ⟨h, h'⟩
  · rw [h]
  · simp [h, h']

namespace RailMove

/-- A move whose effect is known at gantry g, and which leaves the other gantry as it was. -/
theorem of_own {f f' : Feed} (g : Gantry) (part : f'.part = f.part) (cfg : f'.cfg = f.cfg)
    (law : RailLaw f.rail → RailLaw f'.rail) (held : SameHeld (other g) f.rail f'.rail)
    (apart : Ctx.Alike f.cfg f.ctx[other g] f'.ctx[other g])
    (own : CtxMove f.cfg g f.rail f'.rail f.ctx[g] f'.ctx[g]) : RailMove f f' := by
  refine .within part cfg law fun g' => ?_
  rcases eq_or_other g g' with rfl | rfl
  · exact own
  · exact .still held apart

theorem of_aside {f f' : Feed} {g : Gantry} (h : Aside g f f')
    (own : CtxMove f.cfg g f.rail f'.rail f.ctx[g] f'.ctx[g]) : RailMove f f' :=
  .of_own g h.part h.cfg (railLaw_congr h.held) (h.held _) h.apart own

theorem of_halted {f f' : Feed} {g : Gantry} (h : Aside g f f') (state : f'.ctx[g].state = .halted)
    (flight : ∀ m, f'.ctx[g].flight = some m → f.ctx[g].flight = some m) : RailMove f f' :=
  .of_aside h (.halted (h.held g) state flight)

theorem of_alike {f f' : Feed} {g : Gantry} (h : Aside g f f') (own : Ctx.Alike f.cfg f.ctx[g] f'.ctx[g]) :
    RailMove f f' :=
  .of_aside h (.still (h.held g) own)

theorem of_floor {f f' : Feed} (h : f'.floor = f.floor) : RailMove f f' :=
  .of_alike (.of_floor 0 h) (.of_eq (by rw [(Floor.mk.inj h).2.2.2]))

theorem setRail {t : Rail} {f : Feed} (h : ∀ g', SameHeld g' f.rail t) : RailMove f (f.setRail t) :=
  .of_alike (.setRail 0 h) (setRail_alike t f 0)

/-- A change of a context that the laws of the rail do not see. -/
theorem modCtx {g : Gantry} {h : Ctx → Ctx} {f : Feed} (own : Ctx.Alike f.cfg f.ctx[g] (h f.ctx[g])) :
    RailMove f (f.modCtx g h) :=
  .of_alike (.modCtx g h f) (by rwa [modCtx_own])

end RailMove

/-! ### Halts -/

theorem aside_haltCtx (g : Gantry) (r : HaltReason) (b : Option BadMove) (f : Feed) : Aside g f (f.haltCtx g r b) :=
  ((Aside.modCtx g _ f).trans (.setRail g (sameHeld_unreserve f.rail g))).trans (.of_floor g (Feed.raise_floor ..))

/-- The context of a halt, as the laws of the rail see it (R121). -/
theorem haltCtx_own (g : Gantry) (r : HaltReason) (b : Option BadMove) (f : Feed) :
    Ctx.Alike f.cfg (f.ctx[g].halted r b f.time) (f.haltCtx g r b).ctx[g] := by
  have h := setRail_alike (unreserve f.rail g) (f.modCtx g (·.halted r b f.time)) g
  rw [modCtx_own] at h
  simpa only [Feed.haltCtx, Feed.raise_ctx, Feed.modCtx_cfg] using h

theorem furtherFault_own (g : Gantry) (r : HaltReason) (f : Feed) :
    Ctx.Alike f.cfg f.ctx[g] (f.furtherFault g r).ctx[g] := by
  simp only [Feed.furtherFault, Feed.raise_ctx, modCtx_own]
  exact ⟨rfl, rfl, rfl, rfl⟩

theorem aside_furtherFault (g : Gantry) (r : HaltReason) (f : Feed) : Aside g f (f.furtherFault g r) :=
  (Aside.modCtx g _ f).trans (.of_floor g (Feed.raise_floor ..))

theorem aside_fault (g : Gantry) (r : HaltReason) (f : Feed) : Aside g f (f.fault g r) := by
  unfold Feed.fault
  split
  · exact aside_furtherFault g r f
  · exact aside_haltCtx g r none f

/-- After a cause of halt the context is HALTED, with its move still in flight (R121, R122). -/
theorem fault_own (g : Gantry) (r : HaltReason) (f : Feed) :
    (f.fault g r).ctx[g].state = .halted ∧ (f.fault g r).ctx[g].flight = f.ctx[g].flight := by
  unfold Feed.fault
  split
  case isTrue h =>
    have own := furtherFault_own g r f
    exact ⟨own.state.trans h, own.flight⟩
  case isFalse =>
    have own := haltCtx_own g r none f
    exact ⟨own.state, own.flight⟩

theorem railMove_haltCtx (g : Gantry) (r : HaltReason) (b : Option BadMove) (f : Feed) : RailMove f (f.haltCtx g r b) :=
  have own := haltCtx_own g r b f
  .of_halted (aside_haltCtx g r b f) own.state fun _ hm => own.flight.symm.trans hm

theorem railMove_furtherFault (g : Gantry) (r : HaltReason) (f : Feed) : RailMove f (f.furtherFault g r) :=
  .of_alike (aside_furtherFault g r f) (furtherFault_own g r f)

/-- A cause of halt that takes effect after changes beside the laws of the rail, and after gantry g's carry was replaced
(R70, R71). -/
theorem railMove_carry_fault (g : Gantry) (r : HaltReason) (k : Option Carry) {f f' : Feed}
    (h : f'.floor = (f.setCarry g k).floor) : RailMove f (f'.fault g r) := by
  have own := fault_own g r f'
  have ctx : f'.ctx = (f.setCarry g k).ctx := (Floor.mk.inj h).2.2.2
  refine .of_halted (((Aside.modCtx g _ f).trans (.of_floor g h)).trans (aside_fault g r f')) own.1 fun m hm => ?_
  rw [own.2, ctx] at hm
  simpa using hm

theorem railMove_drop (g : Gantry) (f : Feed) : RailMove f (f.drop g) :=
  railMove_carry_fault g .drop none (Feed.onOrder_floor Feed.lostPanel_floor ..)

theorem railMove_unexpectedGrip (g : Gantry) (f : Feed) : RailMove f (f.unexpectedGrip g) :=
  railMove_carry_fault g .unexpectedGrip (some (unknownCarry f.cfg)) rfl

/-! ### Completions -/

theorem aside_closeFlight (g : Gantry) (m : Flight) (f : Feed) : Aside g f (f.closeFlight g m) := by
  unfold Feed.closeFlight
  exact (Aside.of_floor g ((closeOrder_floor ..).trans (closeStation_floor m f))).trans (.modCtx g _ _)

/-- The unsettled close clears the in-flight move, and leaves state and position (R66). -/
theorem closeFlight_own (g : Gantry) (m : Flight) (f : Feed) : (f.closeFlight g m).ctx[g] =
    { f.ctx[g] with carry := closeCarry m (f.vacOf g) f f.ctx[g].carry, flight := none } := by
  have h : (closeOrder m (f.vacOf g) f.ctx[g].carry (closeStation m f)).floor = f.floor := by simp
  rw [Feed.closeFlight, modCtx_own, (Floor.mk.inj h).2.2.2]

theorem railMoves_gripCheck (g : Gantry) (f : Feed) : RailMoves f (f.gripCheck g) := by
  unfold Feed.gripCheck
  split_ifs
  · exact .refl
  · exact (railMove_drop g f).moves
  · exact (railMove_unexpectedGrip g f).moves
  · exact .refl

/-- A clean ending seats the gantry on the span of the shrink, at the position reached (R57). -/
theorem railMoves_settle {g : Gantry} {m : Flight} {r : CompletionRec} {t : Rail} {f : Feed}
    (h : shrink f.rail g (endingSpan g m r f) = some t) : RailMoves f (f.settle g m r t) := by
  let k := settledCarry m r.ending (f.vacOf g) f.ctx[g].carry
  let e := settleEffects g m r.ending (f.vacOf g) f.ctx[g].carry (f.setRail t)
  have he : e.floor = (f.setRail t).floor := settleEffects_floor ..
  obtain ⟨part, cfg, rail, ctx⟩ := Floor.mk.inj he
  have seated : RailMove f (e.modCtx g (·.settled r k)) := by
    refine .of_own g part cfg (fun hl => ?_) (fun i => ?_) ?_ (.seated r.reached ?_ ?_ ?_)
    · exact rail ▸ railLaw_shrink hl h
    · rw [Feed.modCtx_rail, rail]
      exact shrink_other h i
    · rw [modCtx_apart (other_ne g), ctx]
      exact setRail_alike t f (other g)
    · rw [modCtx_own, Feed.modCtx_rail, rail]
      exact shrink_held h
    · rw [modCtx_own]; rfl
    · rw [modCtx_own]; rfl
  exact seated.moves.trans (railMoves_gripCheck g _)

theorem railMove_endFaulted (g : Gantry) (m : Flight) (r : CompletionRec) (why : HaltReason) (f : Feed) :
    RailMove f (f.endFaulted g m r why) := by
  unfold Feed.endFaulted
  refine .of_halted (((Aside.modCtx g _ f).trans (aside_haltCtx g why none _)).trans
    ((aside_closeFlight g m _).trans (.modCtx g _ _))) ?_ fun _ hm => ?_
  · rw [modCtx_own, closeFlight_own]
    exact (haltCtx_own g why none _).state
  · rw [modCtx_own, closeFlight_own] at hm
    cases hm

theorem railMove_endLate {g : Gantry} {f : Feed} (h : f.ctx[g].state = .halted) (m : Flight) (r : CompletionRec) :
    RailMove f (f.endLate g m r) := by
  unfold Feed.endLate
  refine .of_halted ((Aside.modCtx g _ f).trans ((aside_closeFlight g m _).trans (.modCtx g _ _))) ?_ fun _ hm => ?_
  · rw [modCtx_own, closeFlight_own, modCtx_own]
    exact h
  · rw [modCtx_own, closeFlight_own] at hm
    cases hm

theorem railMoves_endClean (g : Gantry) (m : Flight) (r : CompletionRec) (f : Feed) :
    RailMoves f (f.endClean g m r) := by
  unfold Feed.endClean endingRail
  split
  case h_1 t ht =>
    split at ht
    · exact railMoves_settle ht
    · cases ht
  case h_2 => exact (railMove_endFaulted g m r .span f).moves

/-- A completion taken (R54). -/
theorem railMoves_complete (g : Gantry) (r : CompletionRec) (f : Feed) : RailMoves f (complete g r f).1 := by
  unfold complete
  split
  · unfold completeMoving
    split
    · exact railMoves_endClean ..
    · exact railMoves_endClean ..
    · exact (railMove_endFaulted ..).moves
    · exact (railMove_haltCtx ..).moves
    · exact (railMove_haltCtx ..).moves
  · unfold completeIdle
    split
    · exact .refl
    · exact (railMove_haltCtx ..).moves
  case h_3 hs =>
    unfold completeHalted
    split
    · exact (railMove_endLate hs ..).moves
    · exact (railMove_furtherFault ..).moves

/-! ### Judged reads -/

/-- An accepted move holds the cells of its swept span (R40, R41). -/
theorem railMove_accept {g : Gantry} {k : MoveKind} {r : MoveRec} {run : Span} {t : Rail} {f : Feed}
    (h : claim f.rail g run = .granted t) : RailMove f (f.accept g k r run t) := by
  let a := (f.setRail t).modCtx g (·.accepted (newFlight g k r run f))
  have ha : (f.accept g k r run t).floor = a.floor := Feed.acceptOrder_floor g k (moveOrder g k r f) a
  obtain ⟨part, cfg, rail, ctx⟩ := Floor.mk.inj ha
  obtain ⟨hfree, hcells⟩ := claim_granted h
  refine .of_own g part cfg (fun hl => ?_) (fun i => ?_) ?_ (.accepted (newFlight g k r run f) ?_ ?_ ?_)
  · exact rail ▸ railLaw_claim hl h
  · rw [rail]
    exact seat_other hcells (fun i hi hr => (hfree i hi hr).1) i
  · rw [ctx, modCtx_apart (other_ne g)]
    exact setRail_alike t f (other g)
  · rw [rail]
    exact seat_held hcells
  · rw [ctx, modCtx_own]; rfl
  · rw [ctx, modCtx_own]; rfl

theorem railMoves_railWait (g : Gantry) (i : WaitId) (kind : Blocking) (f : Feed) :
    RailMoves f (f.railWait g i kind) := by
  have count : RailMoves f (f.countWait g i) := by
    unfold Feed.countWait
    split
    · exact (RailMove.modCtx ⟨rfl, rfl, rfl, rfl⟩).moves
    · exact (RailMove.setRail (sameHeld_unreserve f.rail g)).moves.tail (.modCtx ⟨rfl, rfl, rfl, rfl⟩)
  have starve (f : Feed) : RailMoves f (f.starve g kind) := by
    have reserved := (RailMove.setRail (sameHeld_reserve f.rail g)).moves
    unfold Feed.starve
    split
    · simp only
      split
      · exact reserved.tail (.of_floor (Feed.raise_floor ..))
      · exact reserved
    · exact .refl
  exact (count.trans (starve _)).tail (.of_floor (Feed.mutualTest_floor ..))

theorem railMoves_claimMove (g : Gantry) (k : MoveKind) (r : MoveRec) (f : Feed) :
    RailMoves f (claimMove g k r f).1 := by
  unfold claimMove
  split
  case h_1 h => exact (railMove_accept h).moves
  case h_2 => exact railMoves_railWait ..

theorem railMoves_judgeGood (g : Gantry) (r : MoveRec) (f : Feed) : RailMoves f (judgeGood g r f).1 := by
  unfold judgeGood
  split_ifs
  iterate 5 exact .refl
  unfold judgeIdle
  split
  · exact (railMove_haltCtx ..).moves
  · split
    · exact (railMove_haltCtx ..).moves
    · split
      · exact .refl
      · exact railMoves_claimMove ..

theorem railMove_setMemRun (g : Gantry) (n : Nat) (f : Feed) : RailMove f (f.setMemRun g n) :=
  .modCtx ⟨rfl, rfl, rfl, rfl⟩

/-- The judging of a read (R29). -/
theorem railMoves_judge (g : Gantry) (data : Option (List Word)) (f : Feed) : RailMoves f (judge g data f).1 := by
  unfold judge
  split
  · unfold judgeBad
    split
    · have own := fault_own g .memory (f.setMemRun g 3)
      exact (railMove_setMemRun g 3 f).moves.tail
        (.of_halted (aside_fault ..) own.1 fun _ hm => own.2.symm.trans hm)
    · exact (railMove_setMemRun ..).moves
  · exact (railMove_setMemRun g 0 f).moves.trans (railMoves_judgeGood ..)

/-! ### CLEAR_HALT, CANCEL_ORDER and RESET_FEED -/

theorem aside_settlePos (g : Gantry) (b : Option Nat) (f : Feed) : Aside g f (f.settlePos g b) := by
  unfold Feed.settlePos
  split <;> [exact .modCtx g _ f; exact .of_floor g rfl]

theorem aside_settleClose (g : Gantry) (f : Feed) : Aside g f (f.settleClose g) := by
  unfold Feed.settleClose
  split <;> [exact aside_closeFlight g _ f; exact .of_floor g rfl]

theorem aside_settleGrip (g : Gantry) (f : Feed) : Aside g f (f.settleGrip g) := by
  unfold Feed.settleGrip
  split_ifs
  · exact .of_floor g rfl
  · exact (Aside.modCtx g _ f).trans (.of_floor g (Feed.onOrder_floor Feed.lostPanel_floor ..))
  · exact .modCtx g _ f
  · exact .of_floor g rfl

/-- The grip step of a settlement changes of the context its carry alone (R125). -/
theorem settleGrip_own (g : Gantry) (f : Feed) : ∃ k, (f.settleGrip g).ctx[g] = { f.ctx[g] with carry := k } := by
  have lost (k : Option Carry) :
      ((f.setCarry g none).onOrder k Feed.lostPanel).ctx[g] = { f.ctx[g] with carry := none } := by
    rw [(Floor.mk.inj (Feed.onOrder_floor Feed.lostPanel_floor k (f.setCarry g none))).2.2.2]
    exact modCtx_own g _ f
  unfold Feed.settleGrip
  split_ifs
  · exact ⟨_, rfl⟩
  · exact ⟨none, lost _⟩
  · exact ⟨_, modCtx_own g _ f⟩
  · exact ⟨_, rfl⟩

/-- The close of a settlement leaves no move in flight, and state and position as they were (R125). -/
theorem settleClose_own (g : Gantry) (f : Feed) :
    ∃ k, (f.settleClose g).ctx[g] = { f.ctx[g] with carry := k, flight := none } := by
  unfold Feed.settleClose
  split
  case h_1 => exact ⟨_, closeFlight_own ..⟩
  case h_2 h => exact ⟨f.ctx[g].carry, by rw [← h]⟩

theorem settlePos_own (g : Gantry) (b : Option Nat) (f : Feed) :
    (f.settlePos g b).ctx[g] = { f.ctx[g] with pos := b.or f.ctx[g].pos } := by
  unfold Feed.settlePos
  split
  · exact modCtx_own g _ f
  · rfl

/-- What the settlement of a CLEAR_HALT leaves in the context: no move in flight, the position given or known, and the
carry that agrees with the grip (R125). -/
theorem settleHalt_own (g : Gantry) (b : Option Nat) (f : Feed) : ∃ k, (f.settleHalt g b).ctx[g] =
    { f.ctx[g] with carry := k, flight := none, pos := b.or f.ctx[g].pos } := by
  obtain ⟨_, hclose⟩ := settleClose_own g (f.settleFall g)
  obtain ⟨k, hgrip⟩ := settleGrip_own g (((f.settleFall g).settleClose g).settlePos g b)
  rw [settlePos_own, hclose, Feed.settleFall_ctx] at hgrip
  exact ⟨k, hgrip⟩

theorem aside_settleHalt (g : Gantry) (b : Option Nat) (f : Feed) : Aside g f (f.settleHalt g b) :=
  (Aside.of_floor g (Feed.settleFall_floor g f)).trans ((aside_settleClose g _).trans
    ((aside_settlePos g b _).trans (aside_settleGrip g _)))

/-- A granted reseat leaves the gantry on its occupancy span (R126, R127). -/
theorem railMove_clearDone {g : Gantry} {t : Rail} {p : Nat} {f : Feed} (hpos : f.ctx[g].pos = some p)
    (hflight : f.ctx[g].flight = none) (h : reseat f.rail g (reseatSpan g f) = .granted t) :
    RailMove f (f.clearDone g t) := by
  obtain ⟨hfree, hcells⟩ := reseat_granted h
  have held : SameHeld (other g) f.rail t := seat_other hcells fun i hi ho hc => (hfree i hi ho).1 (by rw [hc]; rfl)
  have hrail : (f.clearDone g t).rail = t := by simp [Feed.clearDone]
  have hctx : (f.clearDone g t).ctx = ((f.setRail t).modCtx g Ctx.cleared).ctx := by
    unfold Feed.clearDone
    exact Feed.raise_ctx ..
  have own := setRail_alike t f g
  refine .of_own g (by simp [Feed.clearDone]) (by simp [Feed.clearDone]) ?_ ?_ ?_ (.seated p ?_ ?_ ?_)
  · rw [hrail]
    exact fun hl => railLaw_reseat hl h
  · rwa [hrail]
  · rw [hctx, modCtx_apart (other_ne g)]
    exact setRail_alike t f (other g)
  · rw [hctx, modCtx_own, hrail, occupancy_congr (k' := (f.setRail t).ctx[g].cleared.carry) own.len]
    have span : reseatSpan g f = f.cfg.occupancy p f.ctx[g].carry := by rw [reseatSpan, hpos]; rfl
    exact span ▸ seat_held hcells
  · rw [hctx, modCtx_own]
    exact own.pos.trans hpos
  · rw [hctx, modCtx_own]
    exact own.flight.trans hflight

/-- A CLEAR_HALT that passes the tests of R124 finds its context HALTED and a position given or known. -/
theorem clearRefusal_none {g : Gantry} {b : Option Nat} {f : Feed} (h : clearRefusal g b f = none) :
    f.ctx[g].state = .halted ∧ ∃ p, b.or f.ctx[g].pos = some p := by
  unfold clearRefusal at h
  split at h
  case isTrue => cases h
  case isFalse hs =>
    refine ⟨not_not.mp hs, ?_⟩
    split at h
    case h_2 p => exact ⟨p, rfl⟩
    case h_1 =>
      split at h
      case isTrue => cases h
      case isFalse hp => exact Option.ne_none_iff_exists'.mp (not_or.mp hp).1

theorem railMoves_clearHalt (a : Nat) (b : Option Nat) (f : Feed) : RailMoves f (clearHalt a b f).1 := by
  unfold clearHalt
  split
  case isFalse => exact .refl
  case isTrue h =>
    generalize (⟨a, h.1⟩ : Gantry) = g
    unfold clearHaltOf
    split
    · exact .refl
    case _ hnone =>
      obtain ⟨hhalted, p, hp⟩ := clearRefusal_none hnone
      obtain ⟨k, own⟩ := settleHalt_own g b f
      have settled : RailMove f (f.settleHalt g b) :=
        .of_halted (aside_settleHalt g b f) (by rw [own]; exact hhalted) fun _ hm => by rw [own] at hm; cases hm
      unfold Feed.reseatHalt
      split
      case h_1 hgrant =>
        exact settled.moves.tail (railMove_clearDone (by rw [own]; exact hp) (by rw [own]) hgrant)
      all_goals exact settled.moves

/-- A carry orphaned is as long as it was (R4, R89, R91). -/
theorem railMove_orphan {g : Gantry} {tag : Nat} {f : Feed} (why : OrphanWhy) (h : orderTag f.ctx[g].carry = some tag) :
    RailMove f (f.orphan g why) := by
  have len : f.cfg.carryLen (f.ctx[g].carry.map fun k => { k with kind := .orphan }) =
      f.cfg.carryLen f.ctx[g].carry := by
    unfold orderTag at h
    split at h
    case h_2 => cases h
    case h_1 k hk =>
      split at h
      case isFalse => cases h
      case isTrue hkind => rw [hk, Option.map_some, Settings.carryLen, Settings.carryLen, hkind]
  refine .of_alike ((Aside.modCtx g _ f).trans (.of_floor g (Feed.raise_floor ..))) ?_
  rw [Feed.orphan, Feed.raise_ctx]
  exact (modCtx_own g _ f) ▸ ⟨rfl, rfl, rfl, len⟩

theorem railMoves_cancelOrder (a : Nat) (f : Feed) : RailMoves f (cancelOrder a f).1 := by
  have orphan (g : Gantry) (f : Feed) : RailMoves f (f.orphanIf g a) := by
    unfold Feed.orphanIf
    split
    case isTrue h => exact (railMove_orphan _ h).moves
    case isFalse => exact .refl
  unfold cancelOrder
  split_ifs
  · exact .refl
  · exact .refl
  · exact ((orphan 0 f).trans (orphan 1 _)).tail (.of_floor rfl)

theorem railMoves_resetFeed (f : Feed) : RailMoves f (resetFeed f) := by
  have orphan (g : Gantry) (f : Feed) : RailMoves f (f.orphanAny g) := by
    unfold Feed.orphanAny
    split
    case isTrue h =>
      obtain ⟨_, h⟩ := Option.isSome_iff_exists.mp h
      exact (railMove_orphan _ h).moves
    case isFalse => exact .refl
  have halt (g : Gantry) (f : Feed) : RailMoves f (f.resetCtx g) := by
    unfold Feed.resetCtx
    split
    · exact (railMove_haltCtx ..).moves
    · exact .refl
  have emptied := (RailMove.of_floor (f := f) (f' := { f with orders := [] }) rfl).moves
  have dropped : RailMoves f f.dropOrders := (emptied.trans (orphan 0 _)).trans (orphan 1 _)
  exact ((dropped.tail (.of_floor (Feed.resetStations_floor _))).trans (halt 0 _)).trans (halt 1 _)

/-! ### Start-up -/

/-- A context on entering RUN is HALTED with no move in flight (R23, R24). -/
theorem runCtx_halted (on kept : Bool) (railLen : Nat) (t : Time) (c : Ctx) :
    (runCtx on kept railLen t c).state = .halted ∧ (runCtx on kept railLen t c).flight = none := by
  unfold runCtx
  split <;> exact ⟨rfl, rfl⟩

theorem railMove_powerOn (f : Feed) : RailMove f f.powerOn :=
  .fresh rfl fun _ g => by simp [Feed.powerOn, Ctx.powerOn]

theorem railMove_enterRun (c : Settings) (vacRaw : Vector Bool 2) (presentRaw : Vector Bool 6) (f : Feed) :
    RailMove f (f.enterRun c vacRaw presentRaw) := by
  refine .fresh (by simp [Feed.enterRun]) fun _ g => ?_
  simpa [Feed.enterRun] using runCtx_halted ..

theorem railMoves_vacFallen (g : Gantry) (f : Feed) : RailMoves f (f.vacFallen g) := by
  unfold Feed.vacFallen
  split_ifs
  · exact .refl
  · exact (railMove_drop g f).moves
  · exact .refl

theorem railMoves_vacRisen (g : Gantry) (f : Feed) : RailMoves f (f.vacRisen g) := by
  unfold Feed.vacRisen
  split_ifs
  · exact .refl
  · exact .refl
  · exact (railMove_unexpectedGrip g f).moves

/-- Every act on the feed side is a chain of moves of the rail. -/
theorem railMoves_of_act {f f' : Feed} (h : FeedAct f f') : RailMoves f f' := by
  have quiet {f f' : Feed} (h : f'.floor = f.floor) : RailMoves f f' := (RailMove.of_floor h).moves
  cases h with
  | count | clearFlags | enlist | vacRaw | presentRaw | guardExpiry | tick => exact quiet rfl
  | raise => exact quiet (Feed.raise_floor ..)
  | report => exact quiet (report_floor ..)
  | unblockStation => exact quiet (unblockStation_floor ..)
  | ackEvents => exact quiet (ackEvents_floor ..)
  | endNotice => exact quiet (Feed.endNotice_floor ..)
  | endEvent => exact quiet (Feed.endEvent_floor ..)
  | presentRise => exact quiet (Feed.presentRisen_floor ..)
  | presentFall => exact quiet (Feed.presentFallen_floor ..)
  | landingTimeout => exact quiet (Feed.faultStation_floor ..)
  | complete g r => exact railMoves_complete g r f
  | judge g data => exact railMoves_judge g data f
  | clearHalt a b => exact railMoves_clearHalt a b f
  | cancelOrder a => exact railMoves_cancelOrder a f
  | resetFeed => exact railMoves_resetFeed f
  | moveTimeout g => exact (railMove_haltCtx g .moveTimeout none f).moves
  | vacFall g => exact (quiet (Feed.setVac_floor g _ f)).trans (railMoves_vacFallen g _)
  | vacRise g => exact (quiet (Feed.setVac_floor g _ f)).trans (railMoves_vacRisen g _)
  | powerOn => exact (railMove_powerOn f).moves
  | enterRun => exact (railMove_enterRun ..).moves
  | enterLocked => exact (RailMove.fresh rfl fun h => by cases h).moves
  | reload => exact (RailMove.fresh rfl fun h => by cases h).moves
  | reset => exact (RailMove.fresh rfl fun h => by cases h).moves

/-! ### The laws of the rail -/

/-- A law that every move of the rail keeps is kept by every step. -/
theorem kept_of_railMove (P : Feed → Prop) (keeps : ∀ f f' : Feed, RailMove f f' → P f → P f') {s t : State}
    (hs : P s.feed) (h : step s = .next t) : P t.feed :=
  kept_of_step P (fun _ _ hact => kept_of_chain P keeps (railMoves_of_act hact)) hs h

/-- Settles O54: a step is a chain of moves of the rail, each of which keeps the law. -/
theorem everyStepKeepsTheRailLaw : Obligations.EveryStepKeepsTheRailLaw := fun _ _ =>
  kept_of_railMove RailInv fun _ _ => railInv_of_railMove

/-- Settles O55: a step is a chain of moves of the rail, each of which keeps every IDLE gantry on its span. -/
theorem everyStepKeepsTheIdleSpan : Obligations.EveryStepKeepsTheIdleSpan := fun _ _ =>
  kept_of_railMove IdleHolds fun _ _ => idleHolds_of_railMove

end Sys2Proof.Machine
end

section
/-! SUPPORT. Extents and spans: what the cover of an interval is and when one cover contains another (R4 to R6). -/

namespace Sys2Proof.Machine

/-- A longer panel never makes a gantry shorter (R4). -/
theorem extent_mono (c : Settings) {len len' : Nat} (h : len ≤ len') : c.extent len ≤ c.extent len' := by
  unfold Settings.extent
  omega

/-- The west end of a cover, clipped at the west end of the rail (R5). -/
theorem cover_west (c : Settings) (lo hi e : Nat) :
    ((c.cover lo hi e).west : Int) = max ((lo : Int) - e) 0 / c.cellLen := by
  have clipped : ((lo - e : Nat) : Int) = max ((lo : Int) - e) 0 := by omega
  rw [Settings.cover, Int.natCast_ediv, clipped]

/-- A cover contains the cell of every position of its interval that is on the rail (R5). -/
theorem cover_contains (c : Settings) {lo hi p : Nat} (e : Nat) (hlo : lo ≤ p) (hhi : p ≤ hi) (hp : p < c.railLen) :
    (c.cover lo hi e).west ≤ p / c.cellLen ∧ p / c.cellLen ≤ (c.cover lo hi e).east :=
  ⟨Nat.div_le_div_right (by omega), Nat.div_le_div_right (by omega)⟩

/-- A cover stays on the rail (R5). -/
theorem cover_east_lt {c : Settings} (lo hi e : Nat) (h : 0 < c.railLen) : (c.cover lo hi e).east < c.cellCount := by
  refine Nat.div_lt_of_lt_mul ?_
  rw [Nat.mul_comm]
  exact lt_of_le_of_lt (min_le_right ..) (Nat.sub_lt h Nat.one_pos)

/-- A wider interval with a longer extent has the wider cover. -/
theorem cover_has_mono {c : Settings} {lo hi e lo' hi' e' i : Nat} (hlo : lo' ≤ lo) (hhi : hi ≤ hi') (he : e ≤ e')
    (h : (c.cover lo hi e).has i = true) : (c.cover lo' hi' e').has i = true := by
  rw [Span.has_iff] at h ⊢
  have west : (c.cover lo' hi' e').west ≤ (c.cover lo hi e).west := Nat.div_le_div_right (by omega)
  have east : (c.cover lo hi e).east ≤ (c.cover lo' hi' e').east := Nat.div_le_div_right (by omega)
  omega

/-- The swept span of a move from a known position (R6, R40). -/
theorem moveSpan_eq {f : Feed} {g : Gantry} {p0 : Nat} {k : MoveKind} {r : MoveRec} {o : Order}
    (hpos : f.ctx[g].pos = some p0) (ho : k = .pick → f.findOrder r.tag = some o) :
    moveSpan g k r f = f.cfg.cover (min p0 r.target) (max p0 r.target) (f.cfg.extent
      (if k = .pick then max (f.cfg.carryLen f.ctx[g].carry) o.len else f.cfg.carryLen f.ctx[g].carry)) := by
  unfold moveSpan Settings.swept sweptLen
  rw [hpos]
  cases k with
  | pick => rw [ho rfl]; rfl
  | travel | place | reject => rfl

/-- Settles O4: the extent is the cited formula with (len + 1) / 2 as the rounded half. -/
theorem extentOfAPanelLength : Obligations.ExtentOfAPanelLength := by
  intro c len half tag hhalf
  have rounded : (len + 1) / 2 = half := by omega
  refine ⟨?_, fun h => ?_, fun h1 h2 h3 h4 => ?_, rfl, rfl, rfl, rfl⟩ <;> rw [Settings.extent, rounded]
  · omega
  · omega

/-- Settles O5: the occupancy span is the cover of the one position. -/
theorem occupancySpanCoversTheGantry : Obligations.OccupancySpanCoversTheGantry := by
  intro c p carry _ hp
  obtain ⟨west, east⟩ := cover_contains c (c.extent (c.carryLen carry)) le_rfl le_rfl hp
  exact ⟨cover_west .., rfl, west, east, cover_east_lt _ _ _ (Nat.zero_lt_of_lt hp), fun i => Span.has_iff _ i⟩

/-- Settles O6: the swept span is the cover of both ends, with an extent that no span it must contain exceeds. -/
theorem sweptSpanCoversTheMove : Obligations.SweptSpanCoversTheMove := by
  intro f g k r p0 o _ _ _ hpos ho own e
  have span : moveSpan g k r f = f.cfg.cover (min p0 r.target) (max p0 r.target) e := moveSpan_eq hpos ho
  have hown : f.cfg.extent own ≤ e := extent_mono _ (by split <;> omega)
  rw [span]
  refine ⟨?_, rfl, fun i => ?_, fun i => ?_, fun hk i => ?_, fun h => ?_⟩
  · rw [cover_west, Nat.cast_min]
  · exact cover_has_mono (min_le_left ..) (le_max_left ..) hown
  · exact cover_has_mono (min_le_right ..) (le_max_right ..) hown
  · have panel : f.cfg.extent o.len ≤ e := extent_mono _ (by rw [if_pos hk]; exact le_max_right ..)
    exact cover_has_mono (min_le_right ..) (le_max_right ..) panel
  · rw [h, min_self, max_self]

end Sys2Proof.Machine
end

section
/-! SUPPORT. When each request to the rail claim table is granted and what its answer names (R8, R11 to R15). -/

namespace Sys2Proof.Machine

/-! ### Sides of the rail -/

theorem not_beyond_iff (g : Gantry) (a b : Nat) : ¬Beyond g a b ↔ if g = 0 then b ≤ a else a ≤ b := by
  unfold Beyond
  split <;> exact Nat.not_lt

/-- CROSSING seen from either gantry (R8; R13, step 2). -/
theorem crossing_iff (t : Rail) (g : Gantry) (i : Nat) :
    crossing t g i = true ↔ ∃ j, cellAt t j = .held (other g) ∧ ¬Beyond g i j := by
  rcases gantry_cases g with rfl | rfl
  · simp [crossing_zero_iff, Beyond, and_comm]
  · simp [crossing_one_iff, Beyond, and_comm]

theorem lt_of_owner {t : Rail} {g : Gantry} {i : Nat} (h : (cellAt t i).owner = some g) : i < 64 :=
  lt_of_cellAt_ne_free fun hfree => by rw [hfree] at h; cases h

theorem has_eq_false {r : Span} (hr : r.east < 64) {i : Nat} (hi : ¬i < 64) : r.has i = false := by
  have := Span.has_iff r i
  by_contra h
  rw [Bool.not_eq_false, this] at h
  omega

/-! ### Tables in which a gantry is seated on a run -/

/-- The cells as a granted claim and a granted reseat leave them (R8, R13). -/
def Seats (t t' : Rail) (g : Gantry) (r : Span) : Prop :=
  ∀ i < 64, cellAt t' i = if r.has i then .held g else if (cellAt t i).owner = some g then .free else cellAt t i

theorem seat_cells {t t' : Rail} {g : Gantry} {r : Span} (hr : r.east < 64) (h : Seats t t' g r) (i : Nat) :
    cellAt t' i = if r.has i then .held g else if (cellAt t i).owner = some g then .free else cellAt t i := by
  by_cases hi : i < 64
  · exact h i hi
  · have beyond := Nat.not_lt.mp hi
    simp [has_eq_false hr hi, cellAt_of_ge beyond]

theorem holdsRun_of_seat {t t' : Rail} {g : Gantry} {r : Span} (hr : r.west ≤ r.east) (hr' : r.east < 64)
    (h : Seats t t' g r) : HoldsRun t' g r := by
  refine ⟨hr, hr', fun i => ?_⟩
  by_cases hi : i < 64
  · exact seat_held h i hi
  · simp [cellAt_of_ge (Nat.not_lt.mp hi), has_eq_false hr' hi]

/-! ### Claims (R8) -/

/-- The kind of blocking that the part names applies, and is the first that does (R8). -/
theorem blockKind_some {t : Rail} {g : Gantry} {run : Span} {i : Nat} {k : Blocking}
    (h : blockKind t g run i = some k) :
    Blocks t g run i k ∧ ∀ k', Blocks t g run i k' → k.code ≤ k'.code := by
  unfold blockKind at h
  split_ifs at h with hrun hheld hres hcross <;> obtain rfl := Option.some.inj h
  · exact ⟨⟨hrun, hheld⟩, fun k' _ => by cases k' <;> decide⟩
  · refine ⟨⟨hrun, hres⟩, fun k' hk => ?_⟩
    cases k' with
    | held => exact absurd hk.2 hheld
    | reserved | crossing => decide
  · obtain ⟨j, hj, hside⟩ := (crossing_iff t g i).mp hcross
    refine ⟨⟨hrun, j, hj, (not_beyond_iff g i j).mp hside⟩, fun k' hk => ?_⟩
    cases k' with
    | held => exact absurd hk.2 hheld
    | reserved => exact absurd hk.2 hres
    | crossing => decide

/-- A cell for which the part names no kind of blocking is not blocking (R8). -/
theorem blockKind_none {t : Rail} {g : Gantry} {run : Span} {i : Nat} (h : blockKind t g run i = none) (k : Blocking) :
    ¬Blocks t g run i k := by
  unfold blockKind at h
  split_ifs at h with hrun hheld hres hcross
  · cases k with
    | held => exact fun hb => hheld hb.2
    | reserved => exact fun hb => hres hb.2
    | crossing =>
      rintro ⟨_, j, hj, hside⟩
      exact hcross ((crossing_iff t g i).mpr ⟨j, hj, (not_beyond_iff g i j).mpr hside⟩)
  · cases k <;> exact fun hb => hrun hb.1

theorem isSome_blockKind_iff {t : Rail} {g : Gantry} {run : Span} {i : Nat} :
    (blockKind t g run i).isSome = true ↔ ∃ k, Blocks t g run i k := by
  cases h : blockKind t g run i with
  | none => simpa using blockKind_none h
  | some k => simpa using ⟨k, (blockKind_some h).1⟩

theorem Blocks.has {t : Rail} {g : Gantry} {run : Span} {i : Nat} {k : Blocking} (h : Blocks t g run i k) :
    run.has i = true := by
  cases k <;> exact h.1

theorem Blocks.lt {t : Rail} {g : Gantry} {run : Span} {i : Nat} {k : Blocking} (h : Blocks t g run i k)
    (hrun : run.east < 64) : i < 64 :=
  lt_of_le_of_lt ((Span.has_iff run i).mp h.has).2 hrun

/-- Without a cell to name there is no blocking cell of the run (R8). -/
theorem blockingCell_none {t : Rail} {g : Gantry} {run : Span} (hrun : run.east < 64) (h : blockingCell t g run = none)
    (i : Nat) (k : Blocking) : ¬Blocks t g run i k := by
  intro hb
  have hmem : i ∈ (if g = 0 then List.range 64 else (List.range 64).reverse) := by split <;> simpa using hb.lt hrun
  exact List.find?_eq_none.mp h i hmem (isSome_blockKind_iff.mpr ⟨k, hb⟩)

/-- The cell named is blocking, and no blocking cell is nearer the requester (R8). -/
theorem blockingCell_some {t : Rail} {g : Gantry} {run : Span} {i : Nat} (hrun : run.east < 64)
    (h : blockingCell t g run = some i) :
    (blockKind t g run i).isSome = true ∧ ∀ j k, Blocks t g run j k → if g = 0 then i ≤ j else j ≤ i := by
  unfold blockingCell at h
  split at h
  case isTrue hg =>
    obtain ⟨_, hsome, hfirst⟩ := find_range_some h
    refine ⟨hsome, fun j k hb => ?_⟩
    rw [if_pos hg]
    by_contra hji
    exact Bool.false_ne_true ((hfirst j (Nat.not_le.mp hji)).symm.trans (isSome_blockKind_iff.mpr ⟨k, hb⟩))
  case isFalse hg =>
    obtain ⟨_, hsome, hlast⟩ := find_range_reverse_some h
    refine ⟨hsome, fun j k hb => ?_⟩
    rw [if_neg hg]
    by_contra hij
    exact Bool.false_ne_true
      ((hlast j (Nat.not_le.mp hij) (hb.lt hrun)).symm.trans (isSome_blockKind_iff.mpr ⟨k, hb⟩))

/-- Settles O7, by whether the part finds a blocking cell. -/
theorem claimIsGrantedOrNamesTheNearestBlockingCell : Obligations.ClaimIsGrantedOrNamesTheNearestBlockingCell := by
  intro t g run hwe he
  cases hc : blockingCell t g run with
  | none =>
    have hno := blockingCell_none he hc
    refine ⟨fun _ => ?_, fun ⟨i, k, hb⟩ => absurd hb (hno i k)⟩
    obtain ⟨t', hgrant⟩ : ∃ t', claim t g run = .granted t' := ⟨_, by rw [claim, hc]⟩
    have hcells := (claim_granted hgrant).2
    refine ⟨t', hgrant, holdsRun_of_seat hwe he hcells, fun i => ?_⟩
    rw [seat_cells he hcells i]
    exact ⟨fun hr => if_pos hr, fun hr ho => by simp [hr, ho], fun hr ho => by simp [hr, ho]⟩
  | some i =>
    obtain ⟨hsome, hnear⟩ := blockingCell_some he hc
    obtain ⟨k, hk⟩ := Option.isSome_iff_exists.mp hsome
    obtain ⟨hb, hfirst⟩ := blockKind_some hk
    refine ⟨fun hno => absurd hb (hno i k), fun _ => ⟨i, k, ?_, hb, hnear, hfirst⟩⟩
    simp [claim, hc, hk]

/-! ### Shrinks and reseats (R11 to R13, R15) -/

theorem shrink_of_held {t : Rail} {g : Gantry} {o : Span} (h : ∀ i, o.has i = true → cellAt t i = .held g) :
    ∃ t', shrink t g o = some t' := by
  refine ⟨_, if_pos (List.all_eq_true.mpr fun i _ => ?_)⟩
  cases hi : o.has i with
  | false => rfl
  | true => simp [h i hi]

theorem shrink_outside {t : Rail} {g : Gantry} {o : Span} {i : Nat} (hr : o.east < 64) (hi : o.has i = true)
    (h : cellAt t i ≠ .held g) : shrink t g o = none := by
  cases hs : shrink t g o with
  | none => rfl
  | some t' =>
    have hlt : i < 64 := lt_of_le_of_lt ((Span.has_iff o i).mp hi).2 hr
    exact absurd ((shrink_granted hs).1 i hlt hi) h

/-- The cells after a granted shrink, every index told (R11). -/
theorem shrink_cells {t t' : Rail} {g : Gantry} {o : Span} (h : shrink t g o = some t') (i : Nat) :
    cellAt t' i = if cellAt t i = .held g ∧ o.has i = false then .free else cellAt t i := by
  by_cases hi : i < 64
  · exact (shrink_granted h).2 i hi
  · simp [cellAt_of_ge (Nat.not_lt.mp hi)]

theorem reseat_conflict {t : Rail} {g : Gantry} {o : Span} {i : Nat} (hi : o.has i = true)
    (h : (cellAt t i).owner = some (other g)) : reseat t g o = .conflict := by
  refine if_pos (List.any_eq_true.mpr ⟨i, List.mem_range.mpr (lt_of_owner h), ?_⟩)
  simp [hi, h]

/-- A reseat that no cell of the other gantry meets: CROSSED, or granted (R13). -/
theorem reseat_clear {t : Rail} {g : Gantry} {o : Span}
    (h : ∀ i, o.has i = true → (cellAt t i).owner ≠ some (other g)) :
    reseat t g o = if (List.range 64).any (fun i => o.has i && crossing t g i) then .crossed
      else .granted (mapCells t fun i c => if o.has i then .held g else if c.owner = some g then .free else c) := by
  refine if_neg fun hany => ?_
  obtain ⟨i, _, hi⟩ := List.any_eq_true.mp hany
  simp only [Bool.and_eq_true, decide_eq_true_eq] at hi
  exact h i hi.1 hi.2

/-- Settles O8, request by request. -/
theorem shrinkFreezeAndReseat : Obligations.ShrinkFreezeAndReseat := by
  refine ⟨fun t g o hr => ⟨fun hheld => ?_, fun ⟨i, hi, hne⟩ => shrink_outside hr hi hne, fun i => ?_⟩,
    fun t g o hwe hr => ⟨fun ⟨i, hi, ho⟩ => reseat_conflict hi ho, fun hclear => ⟨fun ⟨i, j, hi, hj, hside⟩ => ?_,
      fun hside => ?_⟩⟩⟩
  · obtain ⟨t', ht⟩ := shrink_of_held hheld
    refine ⟨t', ht, fun i => ?_⟩
    rw [shrink_cells ht i]
    refine ⟨fun hh ho => if_pos ⟨hh, ho⟩, fun hkept => if_neg fun ⟨hh, ho⟩ => ?_⟩
    rcases hkept with hne | hin
    · exact hne hh
    · exact Bool.false_ne_true (ho.symm.trans hin)
  · rw [cellAt_unreserve]
    exact ⟨fun h => if_pos h, fun h => if_neg h⟩
  · rw [reseat_clear hclear]
    have hlt : i < 64 := lt_of_le_of_lt ((Span.has_iff o i).mp hi).2 hr
    refine if_pos (List.any_eq_true.mpr ⟨i, List.mem_range.mpr hlt, ?_⟩)
    rw [hi, Bool.true_and]
    exact (crossing_iff t g i).mpr ⟨j, hj, hside⟩
  · obtain ⟨t', ht⟩ : ∃ t', reseat t g o = .granted t' := by
      refine ⟨_, (reseat_clear hclear).trans (if_neg fun hany => ?_)⟩
      obtain ⟨i, _, hi⟩ := List.any_eq_true.mp hany
      rw [Bool.and_eq_true] at hi
      obtain ⟨j, hj, hno⟩ := (crossing_iff t g i).mp hi.2
      exact hno (hside i j hi.1 hj)
    have hcells := (reseat_granted ht).2
    refine ⟨t', ht, holdsRun_of_seat hwe hr hcells, fun i => ?_⟩
    rw [seat_cells hr hcells i]
    exact ⟨fun ho hown => by simp [ho, hown], fun ho hown => by simp [ho, hown]⟩

/-! ### Reserve requests (R14) -/

theorem lt_of_near {t : Rail} {g : Gantry} {i : Nat} (h : Near t g i) : i < 64 := by
  obtain ⟨⟨h, hh⟩, hpast, ⟨j, hj, hij⟩, _⟩ := h
  have hhi := hpast h hh
  have hlh := lt_of_held hh
  have hlj := lt_of_owner hj
  unfold Beyond at hij hhi
  split_ifs at hij hhi <;> omega

/-- Of the near side, only a cell the gantry has reserved already is not FREE (R14). -/
theorem cell_of_near {t : Rail} {g : Gantry} {i : Nat} (h : Near t g i) :
    cellAt t i = .free ∨ cellAt t i = .reserved g := by
  have irrefl : ¬Beyond g i i := by unfold Beyond; split <;> exact Nat.lt_irrefl i
  obtain ⟨_, hpast, _, hstop⟩ := h
  have hother : (cellAt t i).owner ≠ some (other g) := fun ho => irrefl (hstop i ho hpast)
  have hheld : cellAt t i ≠ .held g := fun hh => irrefl (hpast i hh)
  cases hc : cellAt t i with
  | free => exact .inl rfl
  | held g' =>
    rcases eq_or_other g g' with rfl | rfl
    · exact absurd hc hheld
    · exact absurd (by rw [hc]; rfl) hother
  | reserved g' =>
    rcases eq_or_other g g' with rfl | rfl
    · exact .inr rfl
    · exact absurd (by rw [hc]; rfl) hother

/-- The near side lies between the gantry's cell nearest the other gantry and the first cell beyond it that the other
gantry holds or has reserved (R14). -/
theorem near_iff_between {t : Rail} {g : Gantry} {e stop : Nat} (he : cellAt t e = .held g)
    (hlast : ∀ h, cellAt t h = .held g → ¬Beyond g e h) (hs : (cellAt t stop).owner = some (other g))
    (hes : Beyond g e stop) (hfirst : ∀ k, (cellAt t k).owner = some (other g) → Beyond g e k → ¬Beyond g k stop)
    (i : Nat) : Near t g i ↔ Beyond g e i ∧ Beyond g i stop := by
  have past (k : Nat) : (∀ h, cellAt t h = .held g → Beyond g h k) ↔ Beyond g e k := by
    refine ⟨fun h => h e he, fun hek h hh => ?_⟩
    have hle := hlast h hh
    unfold Beyond at hek hle ⊢
    split_ifs at * <;> omega
  unfold Near
  simp only [past]
  refine ⟨fun ⟨_, hei, _, hstop⟩ => ⟨hei, hstop stop hs hes⟩, fun ⟨hei, his⟩ =>
    ⟨⟨e, he⟩, hei, ⟨stop, hs, his⟩, fun k hk hek => ?_⟩⟩
  have hle := hfirst k hk hek
  unfold Beyond at his hle ⊢
  split_ifs at * <;> omega

theorem not_near_of_holdsNone {t : Rail} {g : Gantry} (h : HoldsNone t g) (i : Nat) : ¬Near t g i :=
  fun ⟨⟨j, hj⟩, _⟩ => h j hj

/-- Without a cell of the other gantry beyond its own, a gantry has no near side (R14). -/
theorem not_near_of_no_stop {t : Rail} {g : Gantry} {e : Nat} (he : cellAt t e = .held g)
    (hno : ∀ k, (cellAt t k).owner = some (other g) → ¬Beyond g e k) (i : Nat) : ¬Near t g i := by
  rintro ⟨_, hpast, ⟨j, hj, hij⟩, _⟩
  have hei := hpast e he
  refine hno j hj ?_
  unfold Beyond at hei hij ⊢
  split_ifs at * <;> omega

/-- The near side of gantry 0, east of its own cells (R14). -/
theorem near_zero_iff (t : Rail) (i : Nat) : Near t 0 i ↔ ∃ r, nearSide t 0 = some r ∧ r.has i = true := by
  unfold nearSide
  rw [if_pos rfl]
  cases he : eastmost t (isHeld 0) with
  | none =>
    have hnone : HoldsNone t 0 := fun j hj => by
      simpa [hj, isHeld] using eastmost_none he (lt_of_held hj)
    simpa using not_near_of_holdsNone hnone i
  | some e =>
    obtain ⟨_, hheld, hmax⟩ := eastmost_some he
    have hheld := (isHeld_iff 0 _).mp hheld
    cases hs : (List.range 64).find? fun i => decide (e < i) && decide ((cellAt t i).owner = some 1) with
    | none =>
      have hno : ∀ k, (cellAt t k).owner = some (other 0) → ¬Beyond 0 e k := fun k hk hek =>
        List.find?_eq_none.mp hs k (List.mem_range.mpr (lt_of_owner hk)) (by simpa using ⟨hek, hk⟩)
      simpa [hs] using not_near_of_no_stop hheld hno i
    | some stop =>
      obtain ⟨_, hstop, hmin⟩ := find_range_some hs
      simp only [Bool.and_eq_true, decide_eq_true_eq] at hstop
      have between := near_iff_between (g := 0) hheld (fun j hj hej => by
        simpa [hj, isHeld] using hmax j hej (lt_of_held hj)) hstop.2 hstop.1 (fun k hk hek hks => by
        simpa [show e < k from hek, show (cellAt t k).owner = some 1 from hk] using hmin k hks) i
      simp only [Beyond, if_true] at between
      simp only [hs, between]
      split <;> simp [Span.has] <;> omega

/-- The near side of gantry 1, west of its own cells (R14). -/
theorem near_one_iff (t : Rail) (i : Nat) : Near t 1 i ↔ ∃ r, nearSide t 1 = some r ∧ r.has i = true := by
  have h10 : ¬((1 : Gantry) = 0) := by decide
  unfold nearSide
  rw [if_neg h10]
  cases hw : westmost t (isHeld 1) with
  | none =>
    have hnone : HoldsNone t 1 := fun j hj => by
      simpa [hj, isHeld] using westmost_none hw (lt_of_held hj)
    simpa using not_near_of_holdsNone hnone i
  | some w =>
    obtain ⟨_, hheld, hmin⟩ := westmost_some hw
    have hheld := (isHeld_iff 1 _).mp hheld
    cases hs : (List.range 64).reverse.find? fun i => decide (i < w) && decide ((cellAt t i).owner = some 0) with
    | none =>
      have hno : ∀ k, (cellAt t k).owner = some (other 1) → ¬Beyond 1 w k := fun k hk hkw =>
        List.find?_eq_none.mp hs k (List.mem_reverse.mpr (List.mem_range.mpr (lt_of_owner hk)))
          (by simpa using ⟨hkw, hk⟩)
      simpa [hs] using not_near_of_no_stop hheld hno i
    | some stop =>
      obtain ⟨_, hstop, hmax⟩ := find_range_reverse_some hs
      simp only [Bool.and_eq_true, decide_eq_true_eq] at hstop
      have between := near_iff_between (g := 1) hheld (fun j hj hjw => by
        simpa [hj, isHeld] using hmin j hjw) hstop.2 hstop.1 (fun k hk hkw hsk => by
        simpa [show k < w from hkw, show (cellAt t k).owner = some 0 from hk] using hmax k hsk (lt_of_owner hk)) i
      simp only [Beyond, if_neg h10] at between
      simp only [hs, between]
      split <;> simp [Span.has] <;> omega

/-- The run that a reserve request acts on is the near side (R14). -/
theorem near_iff (t : Rail) (g : Gantry) (i : Nat) : Near t g i ↔ ∃ r, nearSide t g = some r ∧ r.has i = true := by
  rcases gantry_cases g with rfl | rfl
  · exact near_zero_iff t i
  · exact near_one_iff t i

theorem cellAt_reserve_of_some {t : Rail} {g : Gantry} {r : Span} (h : nearSide t g = some r) {i : Nat} (hi : i < 64) :
    cellAt (reserve t g) i = if r.has i = true ∧ cellAt t i = .free then .reserved g else cellAt t i := by
  unfold reserve
  rw [h]
  exact cellAt_mapCells t _ hi

/-- Settles O9: the part's run is the near side, all of which is FREE or reserved already. -/
theorem reserveTakesTheNearSide : Obligations.ReserveTakesTheNearSide := by
  intro t g i
  refine ⟨fun hnear => ?_, fun hfar => ?_⟩
  · obtain ⟨r, hr, hi⟩ := (near_iff t g i).mp hnear
    rw [cellAt_reserve_of_some hr (lt_of_near hnear)]
    rcases cell_of_near hnear with hc | hc <;> simp [hi, hc]
  · cases hr : nearSide t g with
    | none => rw [reserve, hr]
    | some r =>
      by_cases hi : i < 64
      · rw [cellAt_reserve_of_some hr hi]
        exact if_neg fun h => hfar ((near_iff t g i).mpr ⟨r, hr, h.1⟩)
      · rw [cellAt_of_ge (Nat.not_lt.mp hi), cellAt_of_ge (Nat.not_lt.mp hi)]

end Sys2Proof.Machine
end

section
/-! SUPPORT. What reset, LOCKED and RUN begin with (R3, R23 to R25, R97, R98, R159, R173, R176, R177). -/

namespace Sys2Proof.Machine

/-- An event raised in RUN where the ring and the queue have room is queued (R160). -/
theorem raise_of_room {f : Feed} (c : EventCode) (n d : Nat) (hp : f.part = .run) (ho : f.occupancy < f.ringCap - 1)
    (hq : f.events.length < Config.queueCapacity) :
    f.raise c n d = { f with events := f.events ++ [⟨c, n, d, f.time⟩] } := by
  rcases f.raise_cases c n d with ⟨hne, _⟩ | ⟨_, hfull, _⟩ | ⟨_, _, _, h⟩
  · exact absurd hp hne
  · exact absurd hfull (not_or.mpr ⟨Nat.not_le.mpr ho, Nat.not_le.mpr hq⟩)
  · exact h

/-- The first event of an empty ring is queued (R159, R160). -/
theorem raise_of_empty {f : Feed} (c : EventCode) (n d : Nat) (hp : f.part = .run) (hlog : 1 ≤ f.cfg.ringLog)
    (hprod : f.prod = 0) (hcons : f.cons = 0) (he : f.events = []) :
    f.raise c n d = { f with events := [⟨c, n, d, f.time⟩] } := by
  have hocc : f.occupancy = 0 := by simp [Feed.occupancy, Feed.unacked, hprod, hcons, he]
  have hcap : 2 ^ 1 ≤ f.ringCap := Nat.pow_le_pow_right Nat.two_pos hlog
  rw [raise_of_room c n d hp (by omega) (by simp [he]), he, List.nil_append]

/-- A station with no reason takes its state from its raw level (R98). -/
theorem sensed_eq (raw : Bool) {x : Station} (h : x.reason = none) : x.sensed raw =
    { x with
      present := raw
      state := if raw then .blocked else .empty
      reason := if raw then some .unexpectedPanel else none } := by
  unfold Station.sensed
  cases raw
  · simp [h]
  · rfl

theorem runStation_off (kept raw : Bool) (x : Station) : runStation false kept raw x = .powerOn := rfl

theorem runStation_new (raw : Bool) (x : Station) : runStation true false raw x = Station.powerOn.sensed raw := rfl

theorem runStation_kept (raw : Bool) (x : Station) : runStation true true raw x = x.kept.sensed raw := rfl

theorem enterRun_ctx (c : Settings) (vacRaw : Vector Bool 2) (presentRaw : Vector Bool 6) (f : Feed) (g : Gantry) :
    (f.enterRun c vacRaw presentRaw).ctx[g] =
      runCtx (decide (g.val < c.gantryCount)) (decide (f.cause = .reload) && f.gantryOn g) c.railLen f.time
        f.ctx[g] := by
  simp [Feed.enterRun]

theorem enterRun_vac (c : Settings) (vacRaw : Vector Bool 2) (presentRaw : Vector Bool 6) (f : Feed) (g : Gantry) :
    (f.enterRun c vacRaw presentRaw).vac[g] = ⟨decide (g.val < c.gantryCount) && vacRaw[g], none⟩ := by
  simp [Feed.enterRun]

theorem enterRun_stations (c : Settings) (vacRaw : Vector Bool 2) (presentRaw : Vector Bool 6) (f : Feed)
    (st : StationId) : (f.enterRun c vacRaw presentRaw).stations[st] =
      runStation (decide (st.val < c.stationCount)) (decide (f.cause = .reload) && f.stationOn st) presentRaw[st]
        f.stations[st] := by
  simp [Feed.enterRun]

theorem runCtx_new (on : Bool) (railLen : Nat) (t : Time) (c : Ctx) : runCtx on false railLen t c = .powerOn t := by
  simp [runCtx]

theorem runCtx_off (kept : Bool) (railLen : Nat) (t : Time) (c : Ctx) : runCtx false kept railLen t c = .powerOn t := by
  simp [runCtx]

theorem runCtx_kept (railLen : Nat) (t : Time) (c : Ctx) : runCtx true true railLen t c = c.reloaded railLen t := rfl

/-- The tables on entering LOCKED (R176). -/
theorem enterLocked_ctx (code : LoadFault) (f : Feed) (g : Gantry) : (f.enterLocked code).ctx[g] = .powerOn f.time := by
  simp [Feed.enterLocked, Feed.powerOn]

theorem enterLocked_vac (code : LoadFault) (f : Feed) (g : Gantry) : (f.enterLocked code).vac[g] = ⟨false, none⟩ := by
  simp [Feed.enterLocked, Feed.powerOn]

theorem enterLocked_stations (code : LoadFault) (f : Feed) (st : StationId) :
    (f.enterLocked code).stations[st] = .powerOn := by
  simp [Feed.enterLocked, Feed.powerOn]

/-- Entering RUN queues SETTINGS_LOADED as the first event of the new ring (R177). -/
theorem enterRun_event {c : Settings} (vacRaw : Vector Bool 2) (presentRaw : Vector Bool 6) (f : Feed)
    (hlog : 1 ≤ c.ringLog) : (f.enterRun c vacRaw presentRaw).events = [⟨.settingsLoaded, 15, f.cause.code, f.time⟩] ∧
      (f.enterRun c vacRaw presentRaw).counts = f.counts ∧ (f.enterRun c vacRaw presentRaw).flags = f.flags := by
  unfold Feed.enterRun
  simp only
  rw [raise_of_empty _ _ _ rfl hlog rfl rfl rfl]
  exact ⟨rfl, rfl, rfl⟩

/-- Settles O51, unit by unit: the tables, the contexts, the stations. -/
theorem enteringLockedAndRun : Obligations.EnteringLockedAndRun := by
  intro f c code vacRaw presentRaw g st l u kept keptSt sensed
  refine ⟨⟨rfl, rfl, cellAt_freeRail, enterLocked_ctx .., enterLocked_vac .., rfl, enterLocked_stations .., rfl, rfl,
      rfl, rfl, rfl, rfl, rfl, rfl⟩,
    ?tables, fun hoff => ?ctxOff, fun hon => ⟨?vacOn, fun hnew => ?ctxNew, fun hkept => ?ctxKept⟩,
    fun hoff => ?stationOff, fun hon => ⟨fun hnew => ?stationNew, fun hkept => ?stationKept⟩⟩
  case tables =>
    have hrail : u.rail = freeRail := by simp [u, Feed.enterRun]
    refine ⟨?_, ?_, ?_, fun i => by rw [hrail, cellAt_freeRail], ?_, ?_, ?_, ?_, ?_, ?_,
      enterRun_event vacRaw presentRaw f⟩ <;> simp [u, Feed.enterRun]
  case ctxOff =>
    have hno : decide (g.val < c.gantryCount) = false := decide_eq_false (Nat.not_lt.mpr hoff)
    exact ⟨by rw [enterRun_ctx, hno, runCtx_off], by rw [enterRun_vac, hno]; rfl⟩
  case vacOn => rw [enterRun_vac, decide_eq_true hon, Bool.true_and]
  case ctxNew =>
    have hno : (decide (f.cause = .reload) && f.gantryOn g) = false := by simpa [kept, Feed.gantryOn] using hnew
    rw [enterRun_ctx, hno, runCtx_new]
  case ctxKept =>
    have hyes : (decide (f.cause = .reload) && f.gantryOn g) = true := by simpa [kept, Feed.gantryOn] using hkept
    rw [enterRun_ctx, hyes, decide_eq_true hon, runCtx_kept]
    rfl
  case stationOff => rw [enterRun_stations, decide_eq_false (Nat.not_lt.mpr hoff), runStation_off]
  case stationNew =>
    have hno : (decide (f.cause = .reload) && f.stationOn st) = false := by
      simpa [keptSt, Feed.stationOn] using hnew
    rw [enterRun_stations, hno, decide_eq_true hon, runStation_new]
    exact sensed_eq _ rfl
  case stationKept =>
    have hyes : (decide (f.cause = .reload) && f.stationOn st) = true := by
      simpa [keptSt, Feed.stationOn] using hkept
    rw [enterRun_stations, hyes, decide_eq_true hon, runStation_kept]
    exact sensed_eq _ rfl

/-! ### The state after reset -/

theorem reset_ctx (g : Gantry) : State.reset.feed.ctx[g] = .powerOn 0 := by simp [State.reset, Feed.reset]

theorem reset_stations (st : StationId) : State.reset.feed.stations[st] = .powerOn := by
  simp [State.reset, Feed.reset]

/-- A context at its power-on values has an empty carry, no move in flight and a halt record (R22, R23). -/
theorem ctxLaw_powerOn (t : Time) : CtxLaw (.powerOn t) := ⟨rfl, rfl, rfl⟩

/-- A gantry at its power-on values stands in any relation to the order list that its empty carry allows (R92). -/
theorem carryLaw_powerOn {f : Feed} {g : Gantry} {t : Time} (h : f.ctx[g] = .powerOn t) : CarryLaw f g := by
  unfold CarryLaw
  rw [h]
  refine ⟨fun _ hk => ?_, fun _ hm => ?_, fun hs => ?_, fun _ => ⟨rfl, rfl, rfl⟩⟩
  · cases hk
  · cases hm
  · cases hs

/-- Settles O53: after reset no order, carry, move in flight, placement or event stands. -/
theorem resetSatisfiesTheLaws : Obligations.ResetSatisfiesTheLaws := by
  have noPlace (g : Gantry) (st : StationId) : placeTo State.reset.feed.ctx[g] st = false := by rw [reset_ctx]; rfl
  refine ⟨⟨railLaw_freeRail, ?notRun⟩, ?notRun', fun g => reset_ctx g ▸ ctxLaw_powerOn 0, ?ring, ?orders,
    ⟨fun st => ⟨?onePlace, fun h => ?assigned⟩, fun g h => ?idle, fun g st h => ?placed⟩, rfl⟩
  case notRun | notRun' => exact fun h => by cases h
  case ring => exact ⟨Nat.one_pos, Nat.one_pos, le_rfl, Nat.zero_le _⟩
  case orders =>
    exact ⟨⟨Nat.zero_le _, fun _ h => (List.not_mem_nil h).elim, List.nodup_nil⟩,
      fun _ h => (List.not_mem_nil h).elim, carryLaw_powerOn (reset_ctx 0), carryLaw_powerOn (reset_ctx 1)⟩
  case onePlace => exact fun h => Bool.false_ne_true ((noPlace 0 st).symm.trans h.1)
  case assigned => rw [reset_stations] at h; cases h
  case idle => rw [reset_ctx] at h; cases h
  case placed => exact (Bool.false_ne_true ((noPlace g st).symm.trans h)).elim

end Sys2Proof.Machine
end

section
/-! SUPPORT. A change of the rail table clears the blocked-by-other flag by the other gantry's cells (R47). -/

namespace Sys2Proof.Machine

/-- The model's test of the 64 cells finds every change there is, since no cell lies beyond them (R2, R47). -/
theorem changedOf_iff (h : Gantry) (old new : Rail) : changedOf h old new = true ↔ ChangesOf h old new := by
  simp only [changedOf, ChangesOf, List.any_eq_true, List.mem_range, Bool.and_eq_true, Bool.or_eq_true,
    decide_eq_true_eq]
  refine ⟨fun ⟨i, _, hi⟩ => ⟨i, hi⟩, fun ⟨i, hne, howner⟩ => ⟨i, ?_, hne, howner⟩⟩
  rcases howner with ho | ho <;> exact lt_of_owner ho

/-- A change of the table, at one context (R47). -/
theorem setRail_own (t : Rail) (f : Feed) (g : Gantry) :
    (f.setRail t).ctx[g] = if changedOf (other g) f.rail t then f.ctx[g].unblocked else f.ctx[g] := by simp

/-- Settles O10: the flag goes by the cells of the other gantry. -/
theorem railChangeClearsTheBlockedFlag : Obligations.RailChangeClearsTheBlockedFlag := by
  intro f t g
  refine ⟨fun hchange => ?_, fun hsame => ?_, rfl⟩
  · rw [setRail_own, if_pos ((changedOf_iff ..).mpr hchange)]
    rfl
  · rw [setRail_own, if_neg (mt (changedOf_iff ..).mp hsame)]

end Sys2Proof.Machine
end

section
/-! SUPPORT. What one act can do to a gantry context, and that this keeps what a context holds in each of its states
(R21, R22). -/

namespace Sys2Proof.Machine

/-! ### The law of one context -/

theorem ctxLaw_idle {c : Ctx} (h : c.state = .idle) :
    CtxLaw c ↔ c.pos.isSome = true ∧ c.flight = none ∧ c.halt = none ∧ c.timer = false := by
  simp only [CtxLaw, h]

theorem ctxLaw_moving {c : Ctx} (h : c.state = .moving) :
    CtxLaw c ↔ c.flight.isSome = true ∧ c.halt = none ∧ c.timer = true ∧ c.wait = .empty := by
  simp only [CtxLaw, h]

theorem ctxLaw_halted {c : Ctx} (h : c.state = .halted) :
    CtxLaw c ↔ c.halt.isSome = true ∧ c.timer = false ∧ c.wait = .empty := by
  simp only [CtxLaw, h]

/-- Of a HALTED context the law speaks of the halt record, the timer and the wait record alone. -/
theorem ctxLaw_of_halted {c c' : Ctx} (halted : c.state = .halted)
    (same : (c'.state, c'.halt, c'.timer, c'.wait) = (c.state, c.halt, c.timer, c.wait)) (h : CtxLaw c) : CtxLaw c' := by
  simp only [Prod.mk.injEq] at same
  obtain ⟨hstate, hhalt, htimer, hwait⟩ := same
  rw [ctxLaw_halted (hstate.trans halted), hhalt, htimer, hwait]
  exact (ctxLaw_halted halted).mp h

/-- Clearing the blocked-by-other flag leaves an emptied wait record empty (R46, R47). -/
theorem ctxLaw_unblocked {c : Ctx} (h : CtxLaw c) : CtxLaw c.unblocked := by
  have empty (hw : c.wait = .empty) : c.unblocked.wait = .empty := by simp [Ctx.unblocked, hw, WaitRec.empty]
  cases hs : c.state with
  | idle => exact (ctxLaw_idle (c := c.unblocked) hs).mpr ((ctxLaw_idle hs).mp h)
  | moving =>
    obtain ⟨hflight, hhalt, htimer, hwait⟩ := (ctxLaw_moving hs).mp h
    exact (ctxLaw_moving (c := c.unblocked) hs).mpr ⟨hflight, hhalt, htimer, empty hwait⟩
  | halted =>
    obtain ⟨hhalt, htimer, hwait⟩ := (ctxLaw_halted hs).mp h
    exact (ctxLaw_halted (c := c.unblocked) hs).mpr ⟨hhalt, htimer, empty hwait⟩

/-- One more further fault is counted where there is a halt record (R122). -/
theorem ctxLaw_more {c : Ctx} (h : CtxLaw c) : CtxLaw { c with halt := c.halt.map HaltRec.more } := by
  cases hs : c.state with
  | idle =>
    obtain ⟨hpos, hflight, hhalt, htimer⟩ := (ctxLaw_idle hs).mp h
    exact ⟨hpos, hflight, by simp [hhalt], htimer⟩
  | moving =>
    obtain ⟨hflight, hhalt, htimer, hwait⟩ := (ctxLaw_moving hs).mp h
    exact ⟨hflight, by simp [hhalt], htimer, hwait⟩
  | halted =>
    obtain ⟨hhalt, htimer, hwait⟩ := (ctxLaw_halted hs).mp h
    exact ⟨by simpa using hhalt, htimer, hwait⟩

/-! ### The law of both contexts -/

/-- What both contexts hold in their states (R21, R22). -/
structure CtxsLaw (f : Feed) : Prop where
  each : ∀ g : Gantry, CtxLaw f.ctx[g]

theorem ctxsLaw_of_ctx {f f' : Feed} (h : f'.ctx = f.ctx) (hf : CtxsLaw f) : CtxsLaw f' :=
  ⟨fun g => by rw [h]; exact hf.each g⟩

theorem ctxsLaw_of_floor {f f' : Feed} (h : f'.floor = f.floor) (hf : CtxsLaw f) : CtxsLaw f' :=
  ctxsLaw_of_ctx (Floor.mk.inj h).2.2.2 hf

/-- The law of both contexts from that of gantry g's and that of the other's. -/
theorem ctxsLaw_of_own {f : Feed} (g : Gantry) (own : CtxLaw f.ctx[g]) (apart : CtxLaw f.ctx[other g]) :
    CtxsLaw f where
  each g' := by
    rcases eq_or_other g g' with rfl | rfl
    · exact own
    · exact apart

theorem ctxsLaw_modCtx {g : Gantry} {h : Ctx → Ctx} {f : Feed} (own : CtxLaw (h f.ctx[g]))
    (apart : CtxLaw f.ctx[other g]) : CtxsLaw (f.modCtx g h) :=
  ctxsLaw_of_own g (by rwa [modCtx_own]) (by rwa [modCtx_apart (other_ne g)])

theorem ctxLaw_setRail {t : Rail} {f : Feed} {g : Gantry} (h : CtxLaw f.ctx[g]) : CtxLaw (f.setRail t).ctx[g] := by
  rw [setRail_own]
  split
  · exact ctxLaw_unblocked h
  · exact h

theorem ctxsLaw_setRail (t : Rail) {f : Feed} (h : CtxsLaw f) : CtxsLaw (f.setRail t) :=
  ⟨fun g => ctxLaw_setRail (h.each g)⟩

/-- The law does not speak of the carry. -/
theorem ctxsLaw_setCarry (g : Gantry) (k : Option Carry) {f : Feed} (h : CtxsLaw f) : CtxsLaw (f.setCarry g k) :=
  ctxsLaw_modCtx (show CtxLaw { f.ctx[g] with carry := k } from h.each g) (h.each _)

/-! ### Halts -/

/-- A halt writes a halt record, empties the wait record and stops the timer, whatever the context held (R121). -/
theorem ctxsLaw_haltCtx {g : Gantry} (r : HaltReason) (b : Option BadMove) {f : Feed} (apart : CtxLaw f.ctx[other g]) :
    CtxsLaw (f.haltCtx g r b) :=
  ctxsLaw_of_floor (Feed.raise_floor ..) (ctxsLaw_setRail _ (ctxsLaw_modCtx ⟨rfl, rfl, rfl⟩ apart))

theorem ctxsLaw_furtherFault (g : Gantry) (r : HaltReason) {f : Feed} (h : CtxsLaw f) :
    CtxsLaw (f.furtherFault g r) :=
  ctxsLaw_of_floor (Feed.raise_floor ..) (ctxsLaw_modCtx (ctxLaw_more (h.each g)) (h.each _))

theorem ctxsLaw_fault (g : Gantry) (r : HaltReason) {f : Feed} (h : CtxsLaw f) : CtxsLaw (f.fault g r) := by
  unfold Feed.fault
  split
  · exact ctxsLaw_furtherFault g r h
  · exact ctxsLaw_haltCtx r none (h.each _)

theorem ctxsLaw_drop (g : Gantry) {f : Feed} (h : CtxsLaw f) : CtxsLaw (f.drop g) :=
  ctxsLaw_fault g .drop
    (ctxsLaw_of_floor (Feed.onOrder_floor Feed.lostPanel_floor ..) (ctxsLaw_setCarry g none h))

theorem ctxsLaw_unexpectedGrip (g : Gantry) {f : Feed} (h : CtxsLaw f) : CtxsLaw (f.unexpectedGrip g) :=
  ctxsLaw_fault g .unexpectedGrip (ctxsLaw_setCarry g _ h)

/-! ### Completions -/

/-- The other gantry's context stays as it is at an unsettled close. -/
theorem closeFlight_apart (g : Gantry) (m : Flight) (f : Feed) :
    (f.closeFlight g m).ctx[other g] = f.ctx[other g] := by
  have h : (closeOrder m (f.vacOf g) f.ctx[g].carry (closeStation m f)).floor = f.floor := by simp
  rw [Feed.closeFlight, modCtx_apart (other_ne g), (Floor.mk.inj h).2.2.2]

/-- The unsettled close of a HALTED context keeps the law, which leaves its in-flight move open (R66). -/
theorem ctxsLaw_closeFlight {g : Gantry} {f : Feed} (m : Flight) (halted : f.ctx[g].state = .halted) (h : CtxsLaw f) :
    CtxsLaw (f.closeFlight g m) := by
  refine ctxsLaw_of_own g ?_ (by rw [closeFlight_apart]; exact h.each _)
  rw [closeFlight_own]
  exact ctxLaw_of_halted halted rfl (h.each g)

/-- The law does not speak of the last completed toggle. -/
theorem ctxsLaw_setLastDone (g : Gantry) (b : Bool) {f : Feed} (h : CtxsLaw f) :
    CtxsLaw (f.modCtx g fun c => { c with lastDone := b }) :=
  ctxsLaw_modCtx (show CtxLaw { f.ctx[g] with lastDone := b } from h.each g) (h.each _)

theorem ctxsLaw_endFaulted (g : Gantry) (m : Flight) (r : CompletionRec) (why : HaltReason) {f : Feed}
    (h : CtxsLaw f) : CtxsLaw (f.endFaulted g m r why) := by
  unfold Feed.endFaulted
  refine ctxsLaw_setLastDone g _ (ctxsLaw_closeFlight m (haltCtx_own ..).state (ctxsLaw_haltCtx why none ?_))
  rw [modCtx_apart (other_ne g)]
  exact h.each _

theorem ctxsLaw_endLate {g : Gantry} {f : Feed} (m : Flight) (r : CompletionRec) (halted : f.ctx[g].state = .halted)
    (h : CtxsLaw f) : CtxsLaw (f.endLate g m r) := by
  unfold Feed.endLate
  refine ctxsLaw_setLastDone g _ (ctxsLaw_closeFlight m (by rwa [modCtx_own]) (ctxsLaw_modCtx ?_ (h.each _)))
  exact ctxLaw_of_halted halted rfl (h.each g)

theorem ctxsLaw_gripCheck (g : Gantry) {f : Feed} (h : CtxsLaw f) : CtxsLaw (f.gripCheck g) := by
  unfold Feed.gripCheck
  split_ifs
  · exact h
  · exact ctxsLaw_drop g h
  · exact ctxsLaw_unexpectedGrip g h
  · exact h

/-- A settled move leaves an IDLE context at the position reached (R57). -/
theorem ctxsLaw_settle {g : Gantry} {f : Feed} (m : Flight) (r : CompletionRec) (t : Rail)
    (moving : f.ctx[g].state = .moving) (h : CtxsLaw f) : CtxsLaw (f.settle g m r t) := by
  let e := settleEffects g m r.ending (f.vacOf g) f.ctx[g].carry (f.setRail t)
  have hfloor : e.floor = (f.setRail t).floor := settleEffects_floor ..
  have held : CtxsLaw e := ctxsLaw_of_floor hfloor (ctxsLaw_setRail t h)
  have hmoving : e.ctx[g].state = .moving := by
    rw [(Floor.mk.inj hfloor).2.2.2]
    exact (setRail_alike t f g).state.trans moving
  obtain ⟨_, hhalt, _, _⟩ := (ctxLaw_moving hmoving).mp (held.each g)
  exact ctxsLaw_gripCheck g (ctxsLaw_modCtx ⟨rfl, rfl, hhalt, rfl⟩ (held.each _))

theorem ctxsLaw_endClean {g : Gantry} {f : Feed} (m : Flight) (r : CompletionRec) (moving : f.ctx[g].state = .moving)
    (h : CtxsLaw f) : CtxsLaw (f.endClean g m r) := by
  unfold Feed.endClean
  split
  · exact ctxsLaw_settle m r _ moving h
  · exact ctxsLaw_endFaulted g m r .span h

/-- A completion taken (R54). -/
theorem ctxsLaw_complete (g : Gantry) (r : CompletionRec) {f : Feed} (h : CtxsLaw f) : CtxsLaw (complete g r f).1 := by
  have mismatch : CtxsLaw (f.haltCtx g .mismatch none) := ctxsLaw_haltCtx .mismatch none (h.each _)
  unfold complete
  split
  case h_1 moving =>
    unfold completeMoving
    split
    · exact ctxsLaw_endClean _ r moving h
    · exact ctxsLaw_endClean _ r moving h
    · exact ctxsLaw_endFaulted g _ r .driveFault h
    · exact mismatch
    · exact mismatch
  case h_2 =>
    unfold completeIdle
    split
    · exact h
    · exact mismatch
  case h_3 halted =>
    unfold completeHalted
    split
    · exact ctxsLaw_endLate _ r halted h
    · exact ctxsLaw_furtherFault g .mismatch h

/-! ### Judged reads -/

theorem ctxsLaw_setMemRun (g : Gantry) (n : Nat) {f : Feed} (h : CtxsLaw f) : CtxsLaw (f.setMemRun g n) :=
  ctxsLaw_modCtx (show CtxLaw { f.ctx[g] with memRun := n } from h.each g) (h.each _)

/-- An accepted move puts an IDLE context in MOVING (R41). -/
theorem ctxsLaw_accept {g : Gantry} {f : Feed} (k : MoveKind) (r : MoveRec) (run : Span) (t : Rail)
    (idle : f.ctx[g].state = .idle) (h : CtxsLaw f) : CtxsLaw (f.accept g k r run t) := by
  let a := (f.setRail t).modCtx g (·.accepted (newFlight g k r run f))
  have hfloor : (f.accept g k r run t).floor = a.floor := Feed.acceptOrder_floor g k (moveOrder g k r f) a
  have held := ctxsLaw_setRail t h
  obtain ⟨_, _, hhalt, _⟩ := (ctxLaw_idle ((setRail_alike t f g).state.trans idle)).mp (held.each g)
  exact ctxsLaw_of_floor hfloor (ctxsLaw_modCtx ⟨rfl, hhalt, rfl, rfl⟩ (held.each _))

/-- The wait record of an IDLE context is free (R22, R46). -/
theorem ctxsLaw_setWait {g : Gantry} {f : Feed} (w : WaitRec) (idle : f.ctx[g].state = .idle) (h : CtxsLaw f) :
    CtxsLaw (f.modCtx g fun c => { c with wait := w }) :=
  ctxsLaw_modCtx ((ctxLaw_idle (c := { f.ctx[g] with wait := w }) idle).mpr ((ctxLaw_idle idle).mp (h.each g))) (h.each _)

theorem ctxsLaw_railWait {g : Gantry} {f : Feed} (i : WaitId) (kind : Blocking) (idle : f.ctx[g].state = .idle)
    (h : CtxsLaw f) : CtxsLaw (f.railWait g i kind) := by
  have count : CtxsLaw (f.countWait g i) := by
    unfold Feed.countWait
    split
    · exact ctxsLaw_setWait ⟨some i, satUp Config.count8Max f.ctx[g].wait.count, true⟩ idle h
    · exact ctxsLaw_setWait _ ((setRail_alike ..).state.trans idle) (ctxsLaw_setRail _ h)
  have starve {f : Feed} (h : CtxsLaw f) : CtxsLaw (f.starve g kind) := by
    have reserved := ctxsLaw_setRail (reserve f.rail g) h
    unfold Feed.starve
    split
    · simp only
      split
      · exact ctxsLaw_of_floor (Feed.raise_floor ..) reserved
      · exact reserved
    · exact h
  exact ctxsLaw_of_floor (Feed.mutualTest_floor ..) (starve count)

theorem ctxsLaw_judgeIdle {g : Gantry} {f : Feed} (r : MoveRec) (idle : f.ctx[g].state = .idle) (h : CtxsLaw f) :
    CtxsLaw (judgeIdle g r f).1 := by
  unfold judgeIdle
  split
  · exact ctxsLaw_haltCtx _ _ (h.each _)
  · split
    · exact ctxsLaw_haltCtx _ _ (h.each _)
    · split
      · exact h
      · unfold claimMove
        split
        · exact ctxsLaw_accept _ r _ _ idle h
        · exact ctxsLaw_railWait _ _ idle h

theorem ctxsLaw_judgeGood (g : Gantry) (r : MoveRec) {f : Feed} (h : CtxsLaw f) : CtxsLaw (judgeGood g r f).1 := by
  unfold judgeGood
  split_ifs with hhalted _ _ hmoving
  iterate 5 exact h
  have idle : f.ctx[g].state = .idle := by
    cases hs : f.ctx[g].state with
    | idle => rfl
    | moving => exact absurd hs hmoving
    | halted => exact absurd hs hhalted
  exact ctxsLaw_judgeIdle r idle h

/-- The judging of a read (R29). -/
theorem ctxsLaw_judge (g : Gantry) (data : Option (List Word)) {f : Feed} (h : CtxsLaw f) :
    CtxsLaw (judge g data f).1 := by
  unfold judge
  split
  · unfold judgeBad
    split
    · exact ctxsLaw_fault g .memory (ctxsLaw_setMemRun g 3 h)
    · exact ctxsLaw_setMemRun g _ h
  · exact ctxsLaw_judgeGood g _ (ctxsLaw_setMemRun g 0 h)

/-! ### CLEAR_HALT, CANCEL_ORDER and RESET_FEED -/

/-- The law asks for no more than that an IDLE context knows its position (R22). -/
theorem ctxLaw_setPos (p : Nat) {c : Ctx} (h : CtxLaw c) : CtxLaw { c with pos := some p } := by
  cases hs : c.state with
  | idle =>
    obtain ⟨_, rest⟩ := (ctxLaw_idle hs).mp h
    exact ⟨rfl, rest⟩
  | moving => exact (ctxLaw_moving hs).mp h
  | halted => exact (ctxLaw_halted hs).mp h

theorem ctxsLaw_settlePos (g : Gantry) (b : Option Nat) {f : Feed} (h : CtxsLaw f) : CtxsLaw (f.settlePos g b) := by
  unfold Feed.settlePos
  split
  · exact ctxsLaw_modCtx (ctxLaw_setPos _ (h.each g)) (h.each _)
  · exact h

theorem ctxsLaw_settleGrip (g : Gantry) {f : Feed} (h : CtxsLaw f) : CtxsLaw (f.settleGrip g) := by
  unfold Feed.settleGrip
  split_ifs
  · exact h
  · exact ctxsLaw_of_floor (Feed.onOrder_floor Feed.lostPanel_floor ..) (ctxsLaw_setCarry g none h)
  · exact ctxsLaw_setCarry g _ h
  · exact h

/-- The settlement of a CLEAR_HALT keeps the law of the HALTED context it works on (R125). -/
theorem ctxsLaw_settleHalt {g : Gantry} {f : Feed} (b : Option Nat) (halted : f.ctx[g].state = .halted)
    (h : CtxsLaw f) : CtxsLaw (f.settleHalt g b) := by
  have fallen : CtxsLaw (f.settleFall g) := ctxsLaw_of_floor (Feed.settleFall_floor g f) h
  have closed : CtxsLaw ((f.settleFall g).settleClose g) := by
    unfold Feed.settleClose
    split
    · exact ctxsLaw_closeFlight _ (by rwa [Feed.settleFall_ctx]) fallen
    · exact fallen
  exact ctxsLaw_settleGrip g (ctxsLaw_settlePos g b closed)

/-- A cleared halt leaves an IDLE context at a known position (R127). -/
theorem ctxsLaw_clearDone {g : Gantry} {f : Feed} (t : Rail) (halted : f.ctx[g].state = .halted)
    (hpos : f.ctx[g].pos.isSome = true) (hflight : f.ctx[g].flight = none) (h : CtxsLaw f) :
    CtxsLaw (f.clearDone g t) := by
  have held := ctxsLaw_setRail t h
  have alike := setRail_alike t f g
  obtain ⟨_, htimer, _⟩ := (ctxLaw_halted (alike.state.trans halted)).mp (held.each g)
  exact ctxsLaw_of_floor (Feed.raise_floor ..)
    (ctxsLaw_modCtx ⟨alike.pos ▸ hpos, alike.flight.trans hflight, rfl, htimer⟩ (held.each _))

theorem ctxsLaw_clearHalt (a : Nat) (b : Option Nat) {f : Feed} (h : CtxsLaw f) : CtxsLaw (clearHalt a b f).1 := by
  unfold clearHalt
  split
  case isFalse => exact h
  case isTrue ha =>
    generalize (⟨a, ha.1⟩ : Gantry) = g
    unfold clearHaltOf
    split
    case h_1 => exact h
    case h_2 hnone =>
      obtain ⟨halted, p, hp⟩ := clearRefusal_none hnone
      obtain ⟨k, own⟩ := settleHalt_own g b f
      have settled := ctxsLaw_settleHalt b halted h
      unfold Feed.reseatHalt
      split
      · exact ctxsLaw_clearDone _ (by rw [own]; exact halted) (by rw [own]; exact hp ▸ rfl) (by rw [own]) settled
      · exact settled
      · exact settled

theorem ctxsLaw_orphan (g : Gantry) (why : OrphanWhy) {f : Feed} (h : CtxsLaw f) : CtxsLaw (f.orphan g why) :=
  ctxsLaw_of_floor (Feed.raise_floor ..) (ctxsLaw_setCarry g _ h)

theorem ctxsLaw_cancelOrder (a : Nat) {f : Feed} (h : CtxsLaw f) : CtxsLaw (cancelOrder a f).1 := by
  have orphan (g : Gantry) {f : Feed} (h : CtxsLaw f) : CtxsLaw (f.orphanIf g a) := by
    unfold Feed.orphanIf
    split
    · exact ctxsLaw_orphan g _ h
    · exact h
  unfold cancelOrder
  split_ifs
  · exact h
  · exact h
  · exact ⟨(orphan 1 (orphan 0 h)).each⟩

theorem ctxsLaw_dropOrders {f : Feed} (h : CtxsLaw f) : CtxsLaw f.dropOrders := by
  have orphan (g : Gantry) {f : Feed} (h : CtxsLaw f) : CtxsLaw (f.orphanAny g) := by
    unfold Feed.orphanAny
    split
    · exact ctxsLaw_orphan g _ h
    · exact h
  have emptied : CtxsLaw { f with orders := [] } := ⟨h.each⟩
  exact orphan 1 (orphan 0 emptied)

theorem ctxsLaw_resetCtx (g : Gantry) {f : Feed} (h : CtxsLaw f) : CtxsLaw (f.resetCtx g) := by
  unfold Feed.resetCtx
  split
  · exact ctxsLaw_haltCtx _ _ (h.each _)
  · exact h

theorem ctxsLaw_resetFeed {f : Feed} (h : CtxsLaw f) : CtxsLaw (resetFeed f) :=
  ctxsLaw_resetCtx 1 (ctxsLaw_resetCtx 0 (ctxsLaw_of_floor (Feed.resetStations_floor _) (ctxsLaw_dropOrders h)))

/-! ### Start-up and sensors -/

/-- A context on entering RUN is HALTED with the record of its start (R23, R24). -/
theorem ctxLaw_runCtx (on kept : Bool) (railLen : Nat) (t : Time) (c : Ctx) : CtxLaw (runCtx on kept railLen t c) := by
  unfold runCtx
  split
  · exact ⟨rfl, rfl, rfl⟩
  · exact ctxLaw_powerOn t

theorem ctxsLaw_powerOn (f : Feed) : CtxsLaw f.powerOn :=
  ⟨fun g => by simpa [Feed.powerOn] using ctxLaw_powerOn f.time⟩

theorem ctxsLaw_enterRun (c : Settings) (vacRaw : Vector Bool 2) (presentRaw : Vector Bool 6) (f : Feed) :
    CtxsLaw (f.enterRun c vacRaw presentRaw) :=
  ⟨fun g => by rw [enterRun_ctx]; exact ctxLaw_runCtx ..⟩

theorem ctxsLaw_vacFallen (g : Gantry) {f : Feed} (h : CtxsLaw f) : CtxsLaw (f.vacFallen g) := by
  unfold Feed.vacFallen
  split_ifs
  · exact h
  · exact ctxsLaw_drop g h
  · exact h

theorem ctxsLaw_vacRisen (g : Gantry) {f : Feed} (h : CtxsLaw f) : CtxsLaw (f.vacRisen g) := by
  unfold Feed.vacRisen
  split_ifs
  · exact h
  · exact h
  · exact ctxsLaw_unexpectedGrip g h

/-- Every act on the feed side keeps what the contexts hold in their states. -/
theorem ctxsLaw_of_act {f f' : Feed} (act : FeedAct f f') (h : CtxsLaw f) : CtxsLaw f' := by
  cases act with
  | count | clearFlags | enlist | vacRaw | presentRaw | guardExpiry | tick | reload => exact ⟨h.each⟩
  | raise => exact ctxsLaw_of_floor (Feed.raise_floor ..) h
  | report => exact ctxsLaw_of_floor (report_floor ..) h
  | unblockStation => exact ctxsLaw_of_floor (unblockStation_floor ..) h
  | ackEvents => exact ctxsLaw_of_floor (ackEvents_floor ..) h
  | endNotice => exact ctxsLaw_of_floor (Feed.endNotice_floor ..) h
  | endEvent => exact ctxsLaw_of_floor (Feed.endEvent_floor ..) h
  | presentRise => exact ctxsLaw_of_floor (Feed.presentRisen_floor ..) ⟨h.each⟩
  | presentFall => exact ctxsLaw_of_floor (Feed.presentFallen_floor ..) ⟨h.each⟩
  | landingTimeout => exact ctxsLaw_of_floor (Feed.faultStation_floor ..) h
  | complete g r => exact ctxsLaw_complete g r h
  | judge g data => exact ctxsLaw_judge g data h
  | clearHalt a b => exact ctxsLaw_clearHalt a b h
  | cancelOrder a => exact ctxsLaw_cancelOrder a h
  | resetFeed => exact ctxsLaw_resetFeed h
  | moveTimeout g => exact ctxsLaw_haltCtx .moveTimeout none (h.each _)
  | vacFall g => exact ctxsLaw_vacFallen g (ctxsLaw_of_floor (Feed.setVac_floor ..) h)
  | vacRise g => exact ctxsLaw_vacRisen g (ctxsLaw_of_floor (Feed.setVac_floor ..) h)
  | powerOn => exact ctxsLaw_powerOn f
  | enterLocked => exact ⟨(ctxsLaw_powerOn f).each⟩
  | enterRun => exact ctxsLaw_enterRun ..
  | reset => exact ⟨fun g => reset_ctx g ▸ ctxLaw_powerOn 0⟩

/-- Settles O56: a step is a chain of acts on the feed side, each of which keeps the law of both contexts. -/
theorem everyStepKeepsTheContextLaw : Obligations.EveryStepKeepsTheContextLaw := fun _ _ hs hstep =>
  (kept_of_step CtxsLaw (fun _ _ => ctxsLaw_of_act) ⟨hs⟩ hstep).each

end Sys2Proof.Machine
end

section
/-! SUPPORT. Judged reads: what JUDGE_MOVE answers for the fetch in progress, and what the steps of the judging give
(R29 to R48, R129). -/

namespace Sys2Proof.Machine

/-! ### The answer to the fetch -/

/-- A judged read is judged on the words memory returned, and answered DONE with the words of its verdict (R29, R30). -/
theorem exec_judgeMove {s : State} {g : Gantry} {o : PortOp} (a : MemAnswer) (h : Fetching s g o) :
    exec (.judgeMove a) s =
      let data := goodData (s.readAnswer o a)
      let out := judge g data s.feed
      .next (s.judged out.1 (out.2.words s.feed.time (data.getD []))) := by
  obtain ⟨hport, hkind, hlive, hop⟩ := h
  have hend : s.endOp o a = s.freePort := by
    unfold State.endOp State.memAfter
    rw [hop]
  simp only [exec, execJudgeMove]
  rw [State.answered_live hport (by rw [hkind]; rfl) hlive, hend, State.afterFetch, hkind]
  rfl

/-- A read whose memory data are good goes through steps 2 to 9, its run count at 0 (R29, R31). -/
theorem exec_judgeMove_good {s : State} {g : Gantry} {o : PortOp} {a : MemAnswer} {ws : List Word}
    (h : Fetched s g o a ws) {f : Feed} {v : Verdict}
    (hj : judgeGood g (.ofWords ws) (s.feed.setMemRun g 0) = (f, v)) :
    exec (.judgeMove a) s = .next (s.judged f (v.words s.feed.time ws)) := by
  obtain ⟨hfetch, hdata⟩ := h
  rw [exec_judgeMove a hfetch, hdata]
  simp only [judge, hj, Option.getD_some]

/-! ### What good data set to 0, and what the steps read -/

theorem setMemRun_own (g : Gantry) (n : Nat) (f : Feed) :
    (f.setMemRun g n).ctx[g] = { f.ctx[g] with memRun := n } := modCtx_own g _ f

theorem setMemRun_state (g g' : Gantry) (n : Nat) (f : Feed) : (f.setMemRun g n).ctx[g'].state = f.ctx[g'].state := by
  rcases eq_or_other g g' with rfl | rfl
  · rw [setMemRun_own]
  · exact congrArg Ctx.state (modCtx_apart (other_ne g) _ f)

/-- A run count already at the value set stays (R31). -/
theorem setMemRun_self {g : Gantry} {n : Nat} {f : Feed} (h : f.ctx[g].memRun = n) : f.setMemRun g n = f := by
  have hctx : { f.ctx[g] with memRun := n } = f.ctx[g] := by rw [← h]
  have hset : f.ctx.set g f.ctx[g] = f.ctx := Vector.set_getElem_self ..
  simp only [Feed.setMemRun, Feed.modCtx, hctx, hset]

/-- Settles O11: bad data, by the run count at which they are found. -/
theorem judgeMoveWithBadDataWaitsAndCounts : Obligations.JudgeMoveWithBadDataWaitsAndCounts := by
  intro s g o a hfetch hbad
  refine ⟨judgeBad g s.feed, ?answer, fun hlow => ?below, fun htwo hrun => ?halts, fun htwo hhalted => ?further,
    fun hthree => ?more⟩
  case answer =>
    rw [exec_judgeMove a hfetch, hbad]
    rfl
  case below =>
    have hup : satUp 3 s.feed.ctx[g].memRun = s.feed.ctx[g].memRun + 1 := Nat.min_eq_left (by omega)
    rw [judgeBad, if_neg (by omega), hup]
    rfl
  case halts =>
    rw [judgeBad, if_pos htwo, Feed.fault, setMemRun_state, if_neg hrun]
    rfl
  case further =>
    rw [judgeBad, if_pos htwo, Feed.fault, setMemRun_state, if_pos hhalted]
    rfl
  case more =>
    rw [judgeBad, if_neg (by omega), hthree]
    exact setMemRun_self hthree

/-! ### Steps 2 to 6 -/

/-- The feed hold looks at the contexts' states alone (R123). -/
theorem setMemRun_hold (g : Gantry) (n : Nat) (f : Feed) : (f.setMemRun g n).hold = f.hold := by
  have h0 := setMemRun_state g 0 n f
  have h1 := setMemRun_state g 1 n f
  unfold Feed.hold Feed.anyHalted
  rw [show (f.setMemRun g n).ctx[0].state = f.ctx[0].state from h0,
    show (f.setMemRun g n).ctx[1].state = f.ctx[1].state from h1]
  rfl

/-- R32. -/
theorem judgeGood_halted {g : Gantry} {r : MoveRec} {f : Feed} (h : f.ctx[g].state = .halted) :
    judgeGood g r f = (f, stopVerdict f.ctx[g]) := if_pos h

/-- R33. -/
theorem judgeGood_again {g : Gantry} {r : MoveRec} {f : Feed} (hrun : f.ctx[g].state ≠ .halted)
    (htog : r.toggle ≠ f.ctx[g].expected) : judgeGood g r f = (f, .again (repeatCells r f.ctx[g])) := by
  rw [judgeGood, if_neg hrun, if_pos htog]

/-- R34. -/
theorem judgeGood_noMove {g : Gantry} {r : MoveRec} {f : Feed} (hrun : f.ctx[g].state ≠ .halted)
    (htog : r.toggle = f.ctx[g].expected) (hkind : r.kind = 0) : judgeGood g r f = (f, .wait .noMove) := by
  rw [judgeGood, if_neg hrun, if_neg (not_not.mpr htog), if_pos hkind]

/-- R35. -/
theorem judgeGood_busy {g : Gantry} {r : MoveRec} {f : Feed} (hmoving : f.ctx[g].state = .moving)
    (htog : r.toggle = f.ctx[g].expected) (hkind : r.kind ≠ 0) : judgeGood g r f = (f, .wait .busy) := by
  rw [judgeGood, if_neg (hmoving.trans_ne (by decide)), if_neg (not_not.mpr htog), if_neg hkind, if_pos hmoving]

/-- R36. -/
theorem judgeGood_hold {g : Gantry} {r : MoveRec} {f : Feed} (hidle : f.ctx[g].state = .idle)
    (htog : r.toggle = f.ctx[g].expected) (hkind : r.kind ≠ 0) (hhold : f.hold = true) :
    judgeGood g r f = (f, .wait .hold) := by
  rw [judgeGood, if_neg (hidle.trans_ne (by decide)), if_neg (not_not.mpr htog), if_neg hkind,
    if_neg (hidle.trans_ne (by decide)), if_pos hhold]

/-- Steps 2 to 6 passed (R29). -/
theorem judgeGood_idle {g : Gantry} {r : MoveRec} {f : Feed} (hidle : f.ctx[g].state = .idle)
    (htog : r.toggle = f.ctx[g].expected) (hkind : r.kind ≠ 0) (hhold : f.hold = false) :
    judgeGood g r f = judgeIdle g r f := by
  rw [judgeGood, if_neg (hidle.trans_ne (by decide)), if_neg (not_not.mpr htog), if_neg hkind,
    if_neg (hidle.trans_ne (by decide)), if_neg (by simp [hhold])]

/-- The cells of a REPEAT of the move in flight (R33). -/
theorem repeatCells_same {r : MoveRec} {c : Ctx} {m : Flight} (hflight : c.flight = some m)
    (hsame : m.toggle = r.toggle ∧ m.kind.code = r.kind ∧ m.target = r.target) :
    repeatCells r c = some ⟨m.west, m.east⟩ := by
  unfold repeatCells
  rw [hflight]
  exact if_pos hsame

/-- A REPEAT of any other record names no cells (R33). -/
theorem repeatCells_other {r : MoveRec} {c : Ctx}
    (hno : ∀ m, c.flight = some m → ¬(m.toggle = r.toggle ∧ m.kind.code = r.kind ∧ m.target = r.target)) :
    repeatCells r c = none := by
  unfold repeatCells
  split
  case h_1 m hflight => exact if_neg (hno m hflight)
  case h_2 => rfl

/-- The STOP of a context with a halt record (R30, R32). -/
theorem stopVerdict_words {c : Ctx} {h : HaltRec} (hrec : c.halt = some h) (t : Time) (ws : List Word) :
    (stopVerdict c).words t ws = substitute 9 ws (stampWord 3
      (if h.reason = .badMove then (h.sub.map BadMove.code).getD 0 else 0) h.reason.code 255 255) t := by
  unfold stopVerdict
  rw [hrec]
  by_cases hbad : h.reason = .badMove
  · simp only [if_pos hbad]
    rfl
  · simp only [if_neg hbad]
    rfl

/-- Settles O12: the steps of R29 from the second to the sixth, each with the earlier ones passed. -/
theorem judgeMoveStopsRepeatsOrWaits : Obligations.JudgeMoveStopsRepeatsOrWaits := by
  intro s g o a ws hfetch f c r t
  have hown : f.ctx[g] = { c with memRun := 0 } := setMemRun_own g 0 s.feed
  have hstate : f.ctx[g].state = c.state := by rw [hown]
  have hexpected : f.ctx[g].expected = c.expected := by rw [hown]
  have hflight : f.ctx[g].flight = c.flight := by rw [hown]
  have answers {v : Verdict} (hj : judgeGood g r f = (f, v)) :
      exec (.judgeMove a) s = .next (s.judged f (v.words t ws)) := exec_judgeMove_good hfetch hj
  refine ⟨fun h hhalted hrec => ?stop, fun m hrun htog hm h1 h2 h3 => ?again, fun hrun htog hno => ?againNone,
    fun hrun htog hkind => ?noMove, fun hmoving htog hkind => ?busy, fun hidle htog hkind hhold => ?hold⟩
  case stop =>
    rw [answers (judgeGood_halted (hstate.trans hhalted)),
      stopVerdict_words (by rw [hown]; exact hrec)]
  case again =>
    rw [answers (judgeGood_again (hstate.trans_ne hrun) (hexpected ▸ htog)),
      repeatCells_same (hflight.trans hm) ⟨h1, h2, h3⟩]
    rfl
  case againNone =>
    rw [answers (judgeGood_again (hstate.trans_ne hrun) (hexpected ▸ htog)), repeatCells_other (hflight ▸ hno)]
    rfl
  case noMove => exact answers (judgeGood_noMove (hstate.trans_ne hrun) (htog.trans hexpected.symm) hkind)
  case busy => exact answers (judgeGood_busy (hstate.trans hmoving) (htog.trans hexpected.symm) hkind)
  case hold =>
    exact answers (judgeGood_hold (hstate.trans hidle) (htog.trans hexpected.symm) hkind
      ((setMemRun_hold g 0 s.feed).trans hhold))

/-! ### Step 7: impossible moves -/

theorem firstFailing_cons {α : Type} (b : Bool) (x : α) (tests : List (Bool × α)) :
    firstFailing ((b, x) :: tests) = if b then some x else firstFailing tests := by
  cases b <;> rfl

theorem firstFailing_nil {α : Type} : firstFailing ([] : List (Bool × α)) = none := rfl

theorem ofCode_code (k : MoveKind) : MoveKind.ofCode k.code = some k := by cases k <;> rfl

theorem ofCode_none {n : Nat} (h : ¬(1 ≤ n ∧ n ≤ 4)) : MoveKind.ofCode n = none := by
  unfold MoveKind.ofCode
  rw [if_neg (by omega), if_neg (by omega), if_neg (by omega), if_neg (by omega)]

theorem code_of_range {n : Nat} (h : 1 ≤ n ∧ n ≤ 4) : ∃ k : MoveKind, k.code = n := by
  obtain ⟨h1, h4⟩ := h
  interval_cases n
  exacts [⟨.travel, rfl⟩, ⟨.pick, rfl⟩, ⟨.place, rfl⟩, ⟨.reject, rfl⟩]

/-- The table of R37 for a record of an unknown kind. -/
theorem badMoveTests_kind {f : Feed} {g : Gantry} {r : MoveRec} (h : ¬(1 ≤ r.kind ∧ r.kind ≤ 4)) :
    firstFailing (badMoveTests f g r) = some .kind := by
  rw [badMoveTests, firstFailing_cons, if_pos (decide_eq_true h)]

/-- The table of R37 for a record of a known kind, row by row the tests the model makes of that kind. -/
theorem badMoveTests_known {f : Feed} {g : Gantry} {r : MoveRec} {k : MoveKind} (hk : k.code = r.kind)
    (hlisted : CarryListed f g) : firstFailing (badMoveTests f g r) = badMove g k r f := by
  unfold badMoveTests badMove
  simp only [firstFailing_cons, firstFailing_nil, ← hk]
  cases k with
  | travel => simp [MoveKind.code]
  | pick => cases hfind : f.findOrder r.tag <;> simp [MoveKind.code, badPick, hfind]
  | reject => simp [MoveKind.code, badReject]
  | place =>
    unfold badPlace carryOrder
    cases hcarry : f.ctx[g].carry with
    | none => simp [MoveKind.code]
    | some c =>
      by_cases horder : c.kind = .order
      · obtain ⟨x, hx⟩ := Option.isSome_iff_exists.mp (hlisted c.tag (by rw [hcarry]; exact if_pos horder))
        simp [MoveKind.code, orderTag, horder, hx]
      · simp [MoveKind.code, horder]

/-- The table of R39 for a record of a known kind. -/
theorem notYetTests_known {f : Feed} {g : Gantry} {r : MoveRec} {k : MoveKind} (hk : k.code = r.kind) :
    firstFailing (notYetTests f g r) = notYet g k r f := by
  unfold notYetTests notYet
  simp only [firstFailing_cons, firstFailing_nil, ← hk]
  cases k with
  | travel => simp [MoveKind.code]
  | reject => simp [MoveKind.code]
  | pick => cases hfind : f.findOrder r.tag <;> simp [MoveKind.code]
  | place =>
    rw [show (orderTag f.ctx[g].carry).bind f.findOrder = carryOrder f g from rfl]
    cases hfind : carryOrder f g <;> simp [MoveKind.code, Feed.depUnmet, or_assoc]

/-! ### Steps 7 and 8 -/

/-- Step 7: the first row of R37 that fails stops the move and halts the context (R37, R38). -/
theorem judgeIdle_bad {f : Feed} {g : Gantry} {r : MoveRec} {why : BadMove} (hlisted : CarryListed f g)
    (hbad : firstFailing (badMoveTests f g r) = some why) :
    judgeIdle g r f = (f.haltCtx g .badMove (some why), .stop .badMove (some why)) := by
  by_cases hkind : 1 ≤ r.kind ∧ r.kind ≤ 4
  · obtain ⟨k, hk⟩ := code_of_range hkind
    rw [badMoveTests_known hk hlisted] at hbad
    simp only [judgeIdle, ← hk, ofCode_code, hbad]
  · obtain rfl : BadMove.kind = why := Option.some.inj ((badMoveTests_kind hkind).symm.trans hbad)
    simp only [judgeIdle, ofCode_none hkind]

/-- A record that passes R37 is of a known kind. -/
theorem kind_of_passed {f : Feed} {g : Gantry} {r : MoveRec} (hgood : firstFailing (badMoveTests f g r) = none) :
    ∃ k : MoveKind, k.code = r.kind := by
  refine code_of_range ?_
  by_contra hkind
  rw [badMoveTests_kind hkind] at hgood
  cases hgood

/-- Step 8: the first row of R39 that fails answers WAIT (R39). -/
theorem judgeIdle_late {f : Feed} {g : Gantry} {r : MoveRec} {why : WaitReason} (hlisted : CarryListed f g)
    (hgood : firstFailing (badMoveTests f g r) = none) (hlate : firstFailing (notYetTests f g r) = some why) :
    judgeIdle g r f = (f, .wait why) := by
  obtain ⟨k, hk⟩ := kind_of_passed hgood
  rw [badMoveTests_known hk hlisted] at hgood
  rw [notYetTests_known hk] at hlate
  simp only [judgeIdle, ← hk, ofCode_code, hgood, hlate]

/-- Step 9: a move that passes both tables makes its rail claim (R40). -/
theorem judgeIdle_offered {f : Feed} {g : Gantry} {r : MoveRec} {k : MoveKind} (hk : k.code = r.kind)
    (hlisted : CarryListed f g) (hgood : firstFailing (badMoveTests f g r) = none)
    (hready : firstFailing (notYetTests f g r) = none) : judgeIdle g r f = claimMove g k r f := by
  rw [badMoveTests_known hk hlisted] at hgood
  rw [notYetTests_known hk] at hready
  simp only [judgeIdle, ← hk, ofCode_code, hgood, hready]

/-! ### The examination does not see the run count -/

theorem setMemRun_findOrder (g : Gantry) (n tag : Nat) (f : Feed) :
    (f.setMemRun g n).findOrder tag = f.findOrder tag := rfl

theorem setMemRun_carry (g : Gantry) (n : Nat) (f : Feed) : (f.setMemRun g n).ctx[g].carry = f.ctx[g].carry := by
  rw [setMemRun_own]

theorem setMemRun_carryOrder (g : Gantry) (n : Nat) (f : Feed) : carryOrder (f.setMemRun g n) g = carryOrder f g := by
  unfold carryOrder
  rw [setMemRun_carry]
  rfl

theorem setMemRun_badMoveTests (g : Gantry) (n : Nat) (r : MoveRec) (f : Feed) :
    badMoveTests (f.setMemRun g n) g r = badMoveTests f g r := by
  unfold badMoveTests
  rw [setMemRun_carry, setMemRun_carryOrder]
  rfl

theorem setMemRun_notYetTests (g : Gantry) (n : Nat) (r : MoveRec) (f : Feed) :
    notYetTests (f.setMemRun g n) g r = notYetTests f g r := by
  unfold notYetTests
  rw [setMemRun_carryOrder]
  rfl

theorem setMemRun_carryListed {g : Gantry} {f : Feed} (n : Nat) (h : CarryListed f g) :
    CarryListed (f.setMemRun g n) g := fun tag htag => h tag (setMemRun_carry g n f ▸ htag)

theorem setMemRun_moveSpan (g : Gantry) (n : Nat) (k : MoveKind) (r : MoveRec) (f : Feed) :
    moveSpan g k r (f.setMemRun g n) = moveSpan g k r f := by
  unfold moveSpan sweptLen
  rw [setMemRun_own]
  rfl

/-- Good data and steps 2 to 6 passed: the move itself is examined (R29). -/
theorem judgeGood_judgeable {s : State} {g : Gantry} {r : MoveRec} (h : Judgeable s g r) :
    judgeGood g r (s.feed.setMemRun g 0) = judgeIdle g r (s.feed.setMemRun g 0) := by
  obtain ⟨hidle, htog, hkind, hhold⟩ := h
  exact judgeGood_idle ((setMemRun_state g g 0 s.feed).trans hidle) (by rw [setMemRun_own]; exact htog) hkind
    ((setMemRun_hold g 0 s.feed).trans hhold)

/-- Settles O13: R37's table is the seventh step. -/
theorem judgeMoveStopsABadMove : Obligations.JudgeMoveStopsABadMove := by
  intro s g o a ws why hfetch hjudge hlisted hbad
  refine exec_judgeMove_good (v := .stop .badMove (some why)) hfetch ((judgeGood_judgeable hjudge).trans ?_)
  exact judgeIdle_bad (setMemRun_carryListed 0 hlisted) (by rwa [setMemRun_badMoveTests])

/-- Settles O14: R39's table is the eighth step. -/
theorem judgeMoveWaitsUntilTheMoveMayStart : Obligations.JudgeMoveWaitsUntilTheMoveMayStart := by
  intro s g o a ws why hfetch hjudge hlisted hgood hlate
  refine exec_judgeMove_good (v := .wait why) hfetch ((judgeGood_judgeable hjudge).trans ?_)
  exact judgeIdle_late (setMemRun_carryListed 0 hlisted) (by rwa [setMemRun_badMoveTests])
    (by rwa [setMemRun_notYetTests])

/-! ### Step 9: the rail claim -/

/-- Good data and steps 2 to 8 passed: the move makes its rail claim (R40). -/
theorem judgeGood_offered {s : State} {g : Gantry} {r : MoveRec} {k : MoveKind} (h : Offered s g r)
    (hk : k.code = r.kind) :
    judgeGood g r (s.feed.setMemRun g 0) = claimMove g k r (s.feed.setMemRun g 0) := by
  obtain ⟨hjudge, hlisted, hgood, hready⟩ := h
  rw [judgeGood_judgeable hjudge]
  exact judgeIdle_offered hk (setMemRun_carryListed 0 hlisted) (by rwa [setMemRun_badMoveTests])
    (by rwa [setMemRun_notYetTests])

theorem findOrder_tag {f : Feed} {tag : Nat} {x : Order} (h : f.findOrder tag = some x) : x.tag = tag := by
  simpa using List.find?_some h

/-- A move whose claim is granted is accepted, and its record returned with ACCEPT (R30, R40). -/
theorem exec_judgeMove_accepted {s : State} {g : Gantry} {o : PortOp} {a : MemAnswer} {ws : List Word} {k : MoveKind}
    {t : Rail} {w e : Nat} (hfetch : Fetched s g o a ws) (hoffer : Offered s g (.ofWords ws))
    (hk : k.code = (MoveRec.ofWords ws).kind) (hspan : moveSpan g k (.ofWords ws) s.feed = ⟨w, e⟩)
    (hclaim : claim s.feed.rail g ⟨w, e⟩ = .granted t) :
    exec (.judgeMove a) s = .next (s.judged ((s.feed.setMemRun g 0).accept g k (.ofWords ws) ⟨w, e⟩ t)
      (returnedAs ws (stampWord 1 0 0 w e) s.feed.time)) := by
  refine exec_judgeMove_good (v := .accept ⟨w, e⟩) hfetch ((judgeGood_offered hoffer hk).trans ?_)
  have hclaim' : claim (s.feed.setMemRun g 0).rail g ⟨w, e⟩ = .granted t := hclaim
  unfold claimMove
  rw [setMemRun_moveSpan, hspan, hclaim']

theorem modStation_own (st : StationId) (h : Station → Station) (f : Feed) :
    (f.modStation st h).stations[st] = h f.stations[st] := by simp

/-- A placement taken by its station, with the landing notice that shows the toggle as the station has it then (R103,
R115). -/
theorem assign_eq (g : Gantry) (x : Order) (f : Feed) : f.assign g x =
    { f.modStation x.station (fun y => { y with
        state := .assigned, early := false, noticeToggle := !y.noticeToggle, noticeTag := x.tag,
        noticeBatch := x.batch - x.remaining + 1 }) with
      notices := f.notices ++ [⟨x.station, !f.stations[x.station].noticeToggle, x.tag, x.len,
        x.batch - x.remaining + 1, g, f.time⟩] } := by
  simp only [Feed.assign, modStation_own]
  rfl

theorem accept_place {g : Gantry} {r : MoveRec} {run : Span} {t : Rail} {f : Feed} {x : Order}
    (h : moveOrder g .place r f = some x) : f.accept g .place r run t =
      { ((f.setRail t).modCtx g (·.accepted (newFlight g .place r run f))).assign g x with blockReport := .armed } := by
  unfold Feed.accept
  rw [h]
  rfl

/-- Settles O15: the acceptance of R41 for each kind of move. -/
theorem judgeMoveAcceptsAGrantedMove : Obligations.JudgeMoveAcceptsAGrantedMove := by
  intro s g o a ws t w e r f carried now hfetch hoffer
  refine ⟨fun hkind hspan hclaim => ?travel, fun hkind hspan hclaim => ?reject,
    fun x hkind hx hspan hclaim => ?pick, fun x hkind hx hspan hclaim => ?place⟩
  case travel =>
    rw [exec_judgeMove_accepted (k := .travel) hfetch hoffer hkind.symm hspan hclaim]
    rfl
  case reject =>
    rw [exec_judgeMove_accepted (k := .reject) hfetch hoffer hkind.symm hspan hclaim]
    unfold Feed.accept newFlight
    rw [setMemRun_carry]
    rfl
  case pick =>
    rw [exec_judgeMove_accepted (k := .pick) hfetch hoffer hkind.symm hspan hclaim]
    have horder : moveOrder g .pick r (s.feed.setMemRun g 0) = some x := hx
    unfold Feed.accept newFlight
    rw [horder, ← findOrder_tag hx]
    rfl
  case place =>
    rw [exec_judgeMove_accepted (k := .place) hfetch hoffer hkind.symm hspan hclaim]
    have horder : moveOrder g .place r (s.feed.setMemRun g 0) = some x := (setMemRun_carryOrder g 0 s.feed).trans hx
    rw [accept_place horder, assign_eq]
    unfold newFlight
    rw [horder, setMemRun_carry]
    rfl

/-! ### Waiting for rail -/

/-- A move whose claim meets a blocking cell waits for rail, and its record is answered with WAIT, RAIL (R30, R40,
R45). -/
theorem exec_judgeMove_railWait {s : State} {g : Gantry} {o : PortOp} {a : MemAnswer} {ws : List Word} {k : MoveKind}
    {cell : Nat} {kind : Blocking} (hfetch : Fetched s g o a ws) (hoffer : Offered s g (.ofWords ws))
    (hk : k.code = (MoveRec.ofWords ws).kind)
    (hclaim : claim s.feed.rail g (moveSpan g k (.ofWords ws) s.feed) = .conflict cell kind) :
    exec (.judgeMove a) s = .next (s.judged
      ((s.feed.setMemRun g 0).railWait g ⟨(MoveRec.ofWords ws).toggle, k, (MoveRec.ofWords ws).target⟩ kind)
      (substitute 8 ws (stampWord 2 kind.code 22 cell cell) s.feed.time)) := by
  refine exec_judgeMove_good (v := .waitRail kind cell) hfetch ((judgeGood_offered hoffer hk).trans ?_)
  have hclaim' : claim (s.feed.setMemRun g 0).rail g (moveSpan g k (.ofWords ws) s.feed) = .conflict cell kind := hclaim
  unfold claimMove
  rw [setMemRun_moveSpan, hclaim']

/-- A change of the table leaves the wait counts (R47). -/
theorem setRail_waitCount (t : Rail) (f : Feed) (g : Gantry) :
    (f.setRail t).ctx[g].wait.count = f.ctx[g].wait.count := by
  rw [setRail_own]
  split <;> rfl

/-- The wait of the identity that waited before is counted (R46). -/
theorem countWait_same {g : Gantry} {i : WaitId} {f : Feed} (h : f.ctx[g].wait.id = some i) :
    f.countWait g i = f.modCtx g fun c => { c with wait := ⟨some i, min (f.ctx[g].wait.count + 1) 255, true⟩ } :=
  if_pos h

/-- A new identity withdraws and is counted from 1 (R46). -/
theorem countWait_new {g : Gantry} {i : WaitId} {f : Feed} (h : f.ctx[g].wait.id ≠ some i) :
    f.countWait g i = (f.setRail (unreserve f.rail g)).modCtx g fun c => { c with wait := ⟨some i, 1, true⟩ } :=
  if_neg h

/-- A count below the threshold reserves nothing (R48). -/
theorem starve_below {g : Gantry} {kind : Blocking} {f : Feed} (h : f.ctx[g].wait.count < f.cfg.threshold) :
    f.starve g kind = f := if_neg (Nat.not_le.mpr h)

/-- The wait that reaches the threshold reserves and raises STARVED (R48). -/
theorem starve_at {g : Gantry} {kind : Blocking} {f : Feed} (h : f.ctx[g].wait.count = f.cfg.threshold) :
    f.starve g kind = (f.setRail (reserve f.rail g)).raise .starved g.val kind.code := by
  simp only [Feed.starve, setRail_waitCount, Feed.setRail_cfg, h, le_refl, if_true]

/-- A wait beyond the threshold reserves without an event (R48). -/
theorem starve_above {g : Gantry} {kind : Blocking} {f : Feed} (h : f.cfg.threshold < f.ctx[g].wait.count) :
    f.starve g kind = f.setRail (reserve f.rail g) := by
  simp only [Feed.starve, setRail_waitCount, Feed.setRail_cfg, if_pos (le_of_lt h), if_neg (ne_of_gt h)]

theorem blockedLong_iff (f : Feed) (g : Gantry) :
    f.blockedLong g = true ↔ f.cfg.threshold ≤ f.ctx[g].wait.count ∧ f.ctx[g].wait.blocked = true := by
  simp [Feed.blockedLong]

/-- Settles O16: the wait is counted, then the threshold tried, then the mutual block. -/
theorem judgeMoveWaitsForRail : Obligations.JudgeMoveWaitsForRail := by
  intro s g o a ws k cell kind n f1 f2 r id f bothStuck hfetch hoffer hk hclaim hf1 hf2
  have hwait : f.ctx[g].wait = s.feed.ctx[g].wait := by
    rw [show f.ctx[g] = _ from setMemRun_own g 0 s.feed]
  have hcounted : f.countWait g id = f1 ∧ f1.ctx[g].wait.count = n := by
    rcases hf1 with ⟨hid, rfl, rfl⟩ | ⟨hid, rfl, rfl⟩
    · rw [countWait_same (by rw [hwait]; exact hid), hwait, modCtx_own]
      exact ⟨rfl, rfl⟩
    · rw [countWait_new (by rw [hwait]; exact hid), modCtx_own]
      exact ⟨rfl, rfl⟩
  obtain ⟨hcount, hn⟩ := hcounted
  have hstarved : f1.starve g kind = f2 ∧ f2.ctx[g].wait.count = n := by
    rcases hf2 with ⟨hlt, rfl⟩ | ⟨heq, rfl⟩ | ⟨hgt, rfl⟩
    · exact ⟨starve_below (hn ▸ hlt), hn⟩
    · exact ⟨starve_at (hn.trans heq), by rw [Feed.raise_ctx, setRail_waitCount, hn]⟩
    · exact ⟨starve_above (hn ▸ hgt), (setRail_waitCount ..).trans hn⟩
  obtain ⟨hstarve, hn2⟩ := hstarved
  have htest : (f2.blockReport = .armed ∧ f2.blockedLong g = true ∧ f2.gantryOn (other g) = true ∧
      f2.ctx[other g].state = .idle ∧ f2.blockedLong (other g) = true) ↔ bothStuck := by
    rw [blockedLong_iff, blockedLong_iff, hn2, and_assoc]
  have hrail : f.railWait g id kind = f2.mutualTest g kind := by rw [Feed.railWait, hcount, hstarve]
  have hanswer := exec_judgeMove_railWait hfetch hoffer hk hclaim
  rw [show (s.feed.setMemRun g 0).railWait g ⟨r.toggle, k, r.target⟩ kind = f2.mutualTest g kind from hrail,
    Feed.mutualTest] at hanswer
  refine ⟨fun hstuck => ?stuck, fun hfree => ?free⟩
  case stuck => rwa [if_pos (htest.mpr hstuck)] at hanswer
  case free => rwa [if_neg (mt htest.mp hfree)] at hanswer

end Sys2Proof.Machine
end

section
/-! SUPPORT. The timers, the filter intervals and the part's time (R49, R69, R100, R109, R110, R155). -/

namespace Sys2Proof.Machine

theorem live_of_run {s : State} (hreset : s.resetLow = false) (hrun : s.feed.part = .run) : s.live = true := by
  simp [State.live, hreset, hrun]

/-- A filter interval begins where the raw level departs from the filtered one and ends where it returns (R69, R100). -/
theorem intervalAfter_on (level raw : Bool) (t : Time) :
    intervalAfter true level raw t = if level = raw then none else some t := by
  unfold intervalAfter
  by_cases h : level = raw
  · simp [h]
  · simp [h, Ne.symm h]

/-- A timer that has run for its time has reached it, elapsed time being a difference modulo 2^32 (R155). -/
theorem ranFor_of_le {f : Feed} {start : Option Time} {t0 : Time} {ms : Nat} (hstart : start = some t0)
    (hle : ms ≤ (f.time - t0).toNat) : f.ranFor start ms = true := by
  rw [hstart]
  exact decide_eq_true hle

/-- The move timer of a MOVING context that has run for the move timeout (R49). -/
theorem moveDue_of_le {f : Feed} {g : Gantry} {m : Flight} (hmoving : f.ctx[g].state = .moving)
    (hflight : f.ctx[g].flight = some m) (htimer : f.ctx[g].timer = true)
    (hle : 1000 * f.cfg.moveTimeout ≤ (f.time - m.start).toNat) : f.moveDue g = true := by
  unfold Feed.moveDue
  rw [hflight]
  simp only [hmoving, htimer, elapsed, hle, decide_true, Bool.and_self]

/-- Settles O31: each expiry by its timer, each raw change by the filtered level. -/
theorem timeFiltersAndTimers : Obligations.TimeFiltersAndTimers := by
  refine ⟨?expiries, fun s g st level => ⟨?vac, ?present, rfl, ?wraps⟩⟩
  case expiries =>
    intro s g st m t0 c x result hreset hrun
    have hlive := live_of_run hreset hrun
    refine ⟨fun hon hmoving hflight htimer hle => ?move, fun hon hstate hstart hle => ?landing,
      fun hon hstate hstart hle => ?guard⟩
    case move =>
      have hdue : (s.live && s.feed.gantryOn g && s.feed.moveDue g) = true := by
        simp only [hlive, hon, moveDue_of_le hmoving hflight htimer hle, Bool.and_self]
      exact if_pos hdue
    case landing =>
      have hdue : (s.live && s.feed.stationOn st && decide (x.state = .landing) &&
          s.feed.ranFor x.landingStart s.feed.cfg.landingTimeout) = true := by
        simp only [hlive, hon, hstate, ranFor_of_le hstart hle, decide_true, Bool.and_self]
      exact if_pos hdue
    case guard =>
      have hdue : (s.live && s.feed.stationOn st && decide (x.state = .guard) &&
          s.feed.ranFor x.guardStart s.feed.cfg.guardTime[st]) = true := by
        simp only [hlive, hon, hstate, ranFor_of_le hstart hle, decide_true, Bool.and_self]
      exact if_pos hdue
  case vac =>
    intro hreset hrun hon hne
    rw [show exec (.vacRawChange g level) s = execVacRawChange g level s from rfl, execVacRawChange, if_neg hne,
      live_of_run hreset hrun, hon, Bool.and_self, intervalAfter_on]
    rfl
  case present =>
    intro hreset hrun hon hne
    rw [show exec (.presentRawChange st level) s = execPresentRawChange st level s from rfl, execPresentRawChange,
      if_neg hne, live_of_run hreset hrun, hon, Bool.and_self, intervalAfter_on]
    rfl
  case wraps => rw [BitVec.toNat_add]; rfl

end Sys2Proof.Machine
end

section
/-! SUPPORT. The reads of the MOVE windows, and what the line computer writes there and into the settings image (R28,
R146). -/

namespace Sys2Proof.Machine

/-- A read of a MOVE window, by its tag and its slot (R28, R141). -/
theorem route_moveRead {s : State} {g : Gantry} {addr : Addr} (tag : MasterTag)
    (h : Inside s addr 4 (some (.move g))) :
    s.route (readTxn tag addr 4) =
      if tag = s.feed.cfg.driveTag[g] then (if addr.toNat % 16 = 0 then .judged g else .refuse .align (.move g))
      else .raw := by
  rw [State.route_inside (t := readTxn tag addr 4) rfl h]
  by_cases h16 : addr.toNat % 16 = 0 <;>
    simp [State.routeRead, readTxn, Txn.oneRecord, TxnOp.len, h16]

/-- A burst of good words by the owner of an area whose writes may have any size is taken (R141, R146). -/
theorem route_ownerBurst {s : State} {tag : MasterTag} {addr : Addr} {ws : List PWord} {a : Area}
    (h : Inside s addr ws.length (some a)) (howner : s.owner a = some tag) (hsize : a.sized = false)
    (hparity : ∀ w ∈ ws, parityOk w = true) : s.route (writeTxn tag addr ws) = .take a (dataOf ws) := by
  rw [State.route_inside (t := writeTxn tag addr ws) rfl h]
  have hall : ws.all parityOk = true := List.all_eq_true.mpr hparity
  simp only [writeTxn, State.routeWrite, howner, hsize, hall, ne_eq, not_true_eq_false, if_false, Bool.false_and,
    Bool.not_true, Bool.false_eq_true]

/-- Settles O37: the route of a MOVE read by tag and slot, and the posting of what the line computer writes. -/
theorem moveReadsAreHeldAndOwnerWritesPosted : Obligations.MoveReadsAreHeldAndOwnerWritesPosted := by
  refine ⟨fun s g tag addr hfree hin => ?reads, fun s addr ws g => ⟨fun hown => ?record, fun hfree hin hparity => ?image,
    outWords_data⟩⟩
  case reads =>
    have hexec : exec (.moveRead tag addr) s =
        done (s.unanswered.carry (readTxn tag addr 4) (s.route (readTxn tag addr 4))) :=
      congrArg done (State.present_free hfree _)
    rw [hexec, route_moveRead tag hin]
    refine ⟨fun htag h16 => ?judged, fun htag h16 => ?align, fun htag => ?raw⟩
    case judged => rw [if_pos htag, if_pos h16]; rfl
    case align => rw [if_pos htag, if_neg h16]; rfl
    case raw => rw [if_neg htag]; rfl
  case record => exact congrArg done (State.present_owner hown)
  case image =>
    have hroute := route_ownerBurst (tag := s.lcTag) hin rfl rfl hparity
    have hpresent := State.present_free hfree (writeTxn s.lcTag addr ws)
    rw [hroute] at hpresent
    exact congrArg done hpresent

end Sys2Proof.Machine
end

section
/-! SUPPORT. Panels and their order: what a change of one entry does to the list, and a mispick, a lost panel and a
placed panel (R57, R58, R84 to R87). -/

namespace Sys2Proof.Machine

/-! ### The list under a change of one entry -/

theorem findOrder_congr {f f' : Feed} (h : f'.orders = f.orders) (tag : Nat) : f'.findOrder tag = f.findOrder tag := by
  unfold Feed.findOrder
  rw [h]

/-- A change that keeps the tag of the entry it is made to is found there. -/
theorem findOrder_modOrder {tag : Nat} {f : Feed} {o : Order} {k : Order → Order} (h : f.findOrder tag = some o)
    (keeps : ∀ x, (k x).tag = x.tag) : (f.modOrder tag k).findOrder tag = some (k o) := by
  have hsame : ((fun x : Order => x.tag == tag) ∘ fun x => if x.tag = tag then k x else x) = fun x => x.tag == tag := by
    funext x
    by_cases hx : x.tag = tag <;> simp [hx, keeps]
  have hfind : f.orders.find? (fun x => x.tag == tag) = some o := h
  unfold Feed.findOrder
  rw [Feed.modOrder_orders, List.find?_map, hsame, hfind]
  exact congrArg some (if_pos (findOrder_tag h))

/-- A change to an entry that is not in the list is skipped (R57, R84). -/
theorem modOrder_absent {tag : Nat} {f : Feed} (h : f.findOrder tag = none) (k : Order → Order) :
    f.modOrder tag k = f := by
  have hother : ∀ o ∈ f.orders, ¬o.tag = tag := by simpa [Feed.findOrder] using h
  have hmap : (f.orders.map fun o => if o.tag = tag then k o else o) = f.orders := by
    conv_rhs => rw [← List.map_id f.orders]
    exact List.map_congr_left fun o ho => if_neg (hother o ho)
  unfold Feed.modOrder
  rw [hmap]

/-! ### An entry becomes FAULTED (R85) -/

theorem faultOrder_open {tag : Nat} {f : Feed} {o : Order} (h : f.findOrder tag = some o) (hopen : o.fault = none)
    (why : OrderFault) :
    f.faultOrder tag why = (f.modOrder tag fun o => { o with fault := some why }).raise .orderFaulted tag why.code := by
  unfold Feed.faultOrder
  rw [h]
  exact if_pos hopen

/-- The first reason is kept (R85). -/
theorem faultOrder_faulted {tag : Nat} {f : Feed} {o : Order} (h : f.findOrder tag = some o)
    (hfaulted : o.fault.isSome = true) (why : OrderFault) : f.faultOrder tag why = f := by
  unfold Feed.faultOrder
  rw [h]
  exact if_neg (Option.isSome_iff_ne_none.mp hfaulted)

theorem faultOrder_absent {tag : Nat} {f : Feed} (h : f.findOrder tag = none) (why : OrderFault) :
    f.faultOrder tag why = f := by
  unfold Feed.faultOrder
  rw [h]

/-- The entry that is found after it became FAULTED, with the first reason. -/
theorem findOrder_faultOrder {tag : Nat} {f : Feed} {o : Order} (h : f.findOrder tag = some o) (why : OrderFault) :
    (f.faultOrder tag why).findOrder tag = some { o with fault := some (o.fault.getD why) } := by
  cases hfault : o.fault with
  | none =>
    rw [faultOrder_open h hfault, findOrder_congr (Feed.raise_orders ..)]
    exact findOrder_modOrder h fun _ => rfl
  | some first =>
    rw [faultOrder_faulted h (by rw [hfault]; rfl), h, Option.getD_some, ← hfault]

/-! ### A lost panel (R66, R70, R85, R125) -/

theorem findOrder_lowerOut {tag : Nat} {f : Feed} {o : Order} (h : f.findOrder tag = some o) :
    (f.lowerOut tag).findOrder tag = some { o with out := o.out - 1 } :=
  findOrder_modOrder h fun _ => rfl

/-- A lost panel leaves its order FAULTED, with the first reason, and its out count lowered. -/
theorem findOrder_lostPanel {tag : Nat} {f : Feed} {o : Order} (h : f.findOrder tag = some o) :
    (f.lostPanel tag).findOrder tag = some { o with out := o.out - 1, fault := some (o.fault.getD .lost) } :=
  findOrder_faultOrder (findOrder_lowerOut h) .lost

theorem lostPanel_open {tag : Nat} {f : Feed} {o : Order} (h : f.findOrder tag = some o) (hopen : o.fault = none) :
    f.lostPanel tag =
      ((f.lowerOut tag).modOrder tag fun o => { o with fault := some .lost }).raise .orderFaulted tag 2 :=
  faultOrder_open (findOrder_lowerOut h) hopen .lost

theorem lostPanel_faulted {tag : Nat} {f : Feed} {o : Order} (h : f.findOrder tag = some o)
    (hfaulted : o.fault.isSome = true) : f.lostPanel tag = f.lowerOut tag :=
  faultOrder_faulted (findOrder_lowerOut h) hfaulted .lost

theorem lostPanel_absent {tag : Nat} {f : Feed} (h : f.findOrder tag = none) : f.lostPanel tag = f := by
  rw [Feed.lostPanel, Feed.lowerOut, modOrder_absent h, faultOrder_absent h]

/-! ### A placed panel (R59, R86) -/

theorem placedPanel_more {tag : Nat} {f : Feed} {o : Order} (h : f.findOrder tag = some o) (hmore : 1 < o.remaining) :
    f.placedPanel tag = f.modOrder tag fun o => { o with out := o.out - 1, remaining := o.remaining - 1 } := by
  unfold Feed.placedPanel
  rw [h]
  exact if_neg (Nat.not_le.mpr hmore)

theorem placedPanel_last {tag : Nat} {f : Feed} {o : Order} (h : f.findOrder tag = some o) (hlast : o.remaining = 1) :
    f.placedPanel tag = (({ f with orders := removeOrder tag f.orders }).raise .orderDone tag 0).count .ordersDone := by
  unfold Feed.placedPanel
  rw [h]
  exact if_pos (le_of_eq hlast)

theorem placedPanel_absent {tag : Nat} {f : Feed} (h : f.findOrder tag = none) : f.placedPanel tag = f := by
  unfold Feed.placedPanel
  rw [h]

/-! ### A mispick (R58, R84) -/

/-- The order's counts after a mispick that brings its mispick count to n, with the counter MISPICKS and the event. -/
def Feed.countMispick (tag n : Nat) (f : Feed) : Feed :=
  ((f.modOrder tag fun o => { o with out := o.out - 1, mispicks := n }).count .mispicks).raise .mispick tag n

theorem findOrder_countMispick {tag : Nat} {f : Feed} {o : Order} (h : f.findOrder tag = some o) (n : Nat) :
    (f.countMispick tag n).findOrder tag = some { o with out := o.out - 1, mispicks := n } := by
  rw [Feed.countMispick, findOrder_congr (Feed.raise_orders ..), findOrder_congr (Feed.count_orders ..)]
  exact findOrder_modOrder h fun _ => rfl

theorem mispicked_below {tag : Nat} {f : Feed} {o : Order} (h : f.findOrder tag = some o) (hbelow : o.mispicks < 2) :
    f.mispicked tag = f.countMispick tag (o.mispicks + 1) := by
  have hn : satUp 3 o.mispicks = o.mispicks + 1 := Nat.min_eq_left (by omega)
  unfold Feed.mispicked
  rw [h]
  simp only [hn]
  exact if_neg (by omega)

/-- The mispick that brings the count to 3, or finds it there, makes the order FAULTED (R84). -/
theorem mispicked_third {tag : Nat} {f : Feed} {o : Order} (h : f.findOrder tag = some o) (hthird : 2 ≤ o.mispicks) :
    f.mispicked tag = (f.countMispick tag 3).faultOrder tag .mispicks := by
  have hn : satUp 3 o.mispicks = 3 := Nat.min_eq_right (by omega)
  unfold Feed.mispicked
  rw [h]
  simp only [hn]
  rfl

theorem mispicked_absent {tag : Nat} {f : Feed} (h : f.findOrder tag = none) : f.mispicked tag = f := by
  unfold Feed.mispicked
  rw [h]

/-- Settles O26: each row is the equation of the step for the entry found. -/
theorem orderCountsFollowThePanels : Obligations.OrderCountsFollowThePanels := by
  intro f tag o
  refine ⟨fun h => ⟨mispicked_below h, fun htwo hopen => ?faults, fun hthird _ hfaulted => ?faulted, lostPanel_open h,
    lostPanel_faulted h, placedPanel_more h, placedPanel_last h⟩,
    fun h => ⟨mispicked_absent h, lostPanel_absent h, placedPanel_absent h⟩⟩
  case faults =>
    rw [mispicked_third h (le_of_eq htwo.symm), faultOrder_open (findOrder_countMispick h 3) hopen]
    rfl
  case faulted =>
    rw [mispicked_third h hthird, faultOrder_faulted (findOrder_countMispick h 3) hfaulted]
    rfl

end Sys2Proof.Machine
end

section
/-! SUPPORT. The grip: what a DROP, an UNEXPECTED_GRIP and the grip check change, and the filtered changes of VAC (R63,
R69 to R71, R123). -/

namespace Sys2Proof.Machine

/-! ### The order of a carry -/

theorem onOrder_some {carry : Option Carry} {tag : Nat} (h : orderTag carry = some tag) (k : Nat → Feed → Feed)
    (f : Feed) : f.onOrder carry k = k tag f := by
  unfold Feed.onOrder
  rw [h]

theorem onOrder_none {carry : Option Carry} (h : orderTag carry = none) (k : Nat → Feed → Feed) (f : Feed) :
    f.onOrder carry k = f := by
  unfold Feed.onOrder
  rw [h]

/-! ### A DROP (R70) -/

theorem drop_order {g : Gantry} {f : Feed} {tag : Nat} (h : orderTag f.ctx[g].carry = some tag) :
    f.drop g = ((f.setCarry g none).lostPanel tag).fault g .drop := by
  rw [Feed.drop, onOrder_some h]

theorem drop_noOrder {g : Gantry} {f : Feed} (h : orderTag f.ctx[g].carry = none) :
    f.drop g = (f.setCarry g none).fault g .drop := by
  rw [Feed.drop, onOrder_none h]

/-- A DROP leaves the order of the carry FAULTED, with the first reason, and its out count lowered (R70, R85). -/
theorem findOrder_drop {g : Gantry} {f : Feed} {tag : Nat} {o : Order} (hcarry : orderTag f.ctx[g].carry = some tag)
    (h : f.findOrder tag = some o) :
    (f.drop g).findOrder tag = some { o with out := o.out - 1, fault := some (o.fault.getD .lost) } := by
  have hkept : (f.setCarry g none).findOrder tag = some o := h
  rw [drop_order hcarry, findOrder_congr (Feed.fault_orders ..), findOrder_lostPanel hkept]

/-- An enabled HALTED context asserts the feed hold (R123). -/
theorem hold_of_halted {g : Gantry} {f : Feed} (hon : f.gantryOn g = true) (h : f.ctx[g].state = .halted) :
    f.hold = true := by
  have hany : f.anyHalted = true := by
    rcases gantry_cases g with rfl | rfl
    · exact Bool.or_eq_true_iff.mpr (.inl (Bool.and_eq_true_iff.mpr ⟨hon, decide_eq_true h⟩))
    · exact Bool.or_eq_true_iff.mpr (.inr (Bool.and_eq_true_iff.mpr ⟨hon, decide_eq_true h⟩))
  rw [Feed.hold, hany, Bool.or_true]

theorem drop_cfg (g : Gantry) (f : Feed) : (f.drop g).cfg = f.cfg := by
  rw [Feed.drop, Feed.fault_cfg]
  exact (Floor.mk.inj (Feed.onOrder_floor Feed.lostPanel_floor f.ctx[g].carry (f.setCarry g none))).2.1

theorem drop_hold {g : Gantry} {f : Feed} (hon : f.gantryOn g = true) : (f.drop g).hold = true :=
  hold_of_halted (by rw [Feed.gantryOn, drop_cfg]; exact hon) (fault_own g .drop _).1

/-! ### The grip check (R63) -/

theorem gripCheck_gripped {g : Gantry} {f : Feed} (hcarry : f.ctx[g].carry.isSome = true)
    (hvac : f.vac[g].level = true) : f.gripCheck g = f :=
  (if_pos hcarry).trans (if_pos hvac)

theorem gripCheck_empty {g : Gantry} {f : Feed} (hcarry : f.ctx[g].carry = none) (hvac : f.vac[g].level = false) :
    f.gripCheck g = f := by
  simp only [Feed.gripCheck, Feed.vacOf, hcarry, hvac, Option.isSome_none, Bool.false_eq_true, if_false]

theorem gripCheck_lost {g : Gantry} {f : Feed} (hcarry : f.ctx[g].carry.isSome = true)
    (hvac : f.vac[g].level = false) : f.gripCheck g = f.drop g :=
  (if_pos hcarry).trans (if_neg (Bool.eq_false_iff.mp hvac))

theorem gripCheck_found {g : Gantry} {f : Feed} (hcarry : f.ctx[g].carry = none) (hvac : f.vac[g].level = true) :
    f.gripCheck g = f.unexpectedGrip g := by
  simp only [Feed.gripCheck, Feed.vacOf, hcarry, hvac, Option.isSome_none, Bool.false_eq_true, if_false, if_true]

/-- Settles O23: the four answers of the grip check, and a DROP by whether the carry has an order. -/
theorem gripCheckDropAndUnexpectedGrip : Obligations.GripCheckDropAndUnexpectedGrip := fun _ _ =>
  ⟨gripCheck_gripped, gripCheck_empty, gripCheck_lost, gripCheck_found, fun _ => drop_order, drop_noOrder,
    fun _ _ => findOrder_drop, fun _ => drop_hold, rfl⟩

/-! ### Filtered changes of VAC (R69 to R71) -/

theorem gripInFlight_iff (c : Ctx) : gripInFlight c = true ↔ ∃ m, c.flight = some m ∧ m.kind ≠ .travel := by
  unfold gripInFlight
  cases c.flight <;> simp

theorem pickInFlight_iff (c : Ctx) : pickInFlight c = true ↔ ∃ m, c.flight = some m ∧ m.kind = .pick := by
  unfold pickInFlight
  cases c.flight <;> simp

theorem vacFallen_gripMove {g : Gantry} {f : Feed} (h : ∃ m, f.ctx[g].flight = some m ∧ m.kind ≠ .travel) :
    f.vacFallen g = f := if_pos ((gripInFlight_iff _).mpr h)

theorem vacFallen_carrying {g : Gantry} {f : Feed} (h : ¬∃ m, f.ctx[g].flight = some m ∧ m.kind ≠ .travel)
    (hcarry : f.ctx[g].carry.isSome = true) : f.vacFallen g = f.drop g :=
  (if_neg (mt (gripInFlight_iff _).mp h)).trans (if_pos hcarry)

theorem vacFallen_empty {g : Gantry} {f : Feed} (hcarry : f.ctx[g].carry = none) : f.vacFallen g = f := by
  simp only [Feed.vacFallen, hcarry, Option.isSome_none, Bool.false_eq_true, if_false, ite_self]

theorem vacRisen_pick {g : Gantry} {f : Feed} (h : ∃ m, f.ctx[g].flight = some m ∧ m.kind = .pick) :
    f.vacRisen g = f := if_pos ((pickInFlight_iff _).mpr h)

theorem vacRisen_carrying {g : Gantry} {f : Feed} (hcarry : f.ctx[g].carry.isSome = true) : f.vacRisen g = f := by
  simp only [Feed.vacRisen, hcarry, if_true, ite_self]

theorem vacRisen_empty {g : Gantry} {f : Feed} (h : ¬∃ m, f.ctx[g].flight = some m ∧ m.kind = .pick)
    (hcarry : f.ctx[g].carry = none) : f.vacRisen g = f.unexpectedGrip g := by
  rw [Feed.vacRisen, if_neg (mt (pickInFlight_iff _).mp h), hcarry]
  rfl

/-- A change to the level that stands already is not due (log 10). -/
theorem vacDue_standing {s : State} {g : Gantry} {level : Bool} (h : s.feed.vac[g].level = level) :
    s.vacDue g level = false := by
  simp only [State.vacDue, h, bne_self_eq_false, Bool.and_false, Bool.false_and]

/-- A change is due when the raw level has stood for the filter time (R69; log 35). -/
theorem vacDue_filtered {s : State} {g : Gantry} {t0 : Time} {level : Bool} (hreset : s.resetLow = false)
    (hrun : s.feed.part = .run) (hon : s.feed.gantryOn g = true) (hlevel : s.feed.vac[g].level ≠ level)
    (hraw : s.vacRaw[g] = level) (hsince : s.feed.vac[g].since = some t0)
    (hle : s.feed.cfg.filterTime ≤ (s.feed.time - t0).toNat) : s.vacDue g level = true := by
  have hdone : s.feed.filterDone s.feed.vac[g].since = true := by
    rw [hsince]
    exact decide_eq_true hle
  simp only [State.vacDue, live_of_run hreset hrun, hon, bne_iff_ne.mpr hlevel, hraw, hdone, beq_self_eq_true,
    Bool.and_self]

theorem exec_vacFall_due {s : State} {g : Gantry} {f : Feed} (hdue : s.vacDue g false = true)
    (h : (s.feed.setVac g ⟨false, none⟩).vacFallen g = f) :
    exec (.vacFall g) s = .next (settle { s with feed := f }) := by
  rw [← h]
  exact if_pos hdue

theorem exec_vacRise_due {s : State} {g : Gantry} {f : Feed} (hdue : s.vacDue g true = true)
    (h : (s.feed.setVac g ⟨true, none⟩).vacRisen g = f) :
    exec (.vacRise g) s = .next (settle { s with feed := f }) := by
  rw [← h]
  exact if_pos hdue

/-- Settles O24: a change is due or not, and a due one acts by the move in flight and then by the carry. -/
theorem vacChangeActsByMoveAndCarry : Obligations.VacChangeActsByMoveAndCarry := by
  refine ⟨fun s g => ⟨fun h => if_neg (Bool.eq_false_iff.mp (vacDue_standing h)),
    fun h => if_neg (Bool.eq_false_iff.mp (vacDue_standing h))⟩, ?due⟩
  case due =>
    intro s g t0 level f grips picks next hreset hrun hon hlevel hraw hsince hle
    have hdue := vacDue_filtered hreset hrun hon hlevel hraw hsince hle
    refine ⟨?fall, ?rise⟩
    case fall =>
      rintro rfl
      exact ⟨fun hgrips => exec_vacFall_due hdue (vacFallen_gripMove hgrips),
        fun hfree hcarry => exec_vacFall_due hdue (vacFallen_carrying hfree hcarry),
        fun hcarry => exec_vacFall_due hdue (vacFallen_empty hcarry)⟩
    case rise =>
      rintro rfl
      exact ⟨fun hpicks => exec_vacRise_due hdue (vacRisen_pick hpicks),
        fun hcarry => exec_vacRise_due hdue (vacRisen_carrying hcarry),
        fun hfree hcarry => exec_vacRise_due hdue (vacRisen_empty hfree hcarry)⟩

end Sys2Proof.Machine
end

section
/-! SUPPORT. The unsettled close of an in-flight move: its station, its order and the carry it leaves (R66, R67,
R106). -/

namespace Sys2Proof.Machine

/-- The three parts of an unsettled close: the station step, the order step after it, and the carry (R66). -/
theorem closeFlight_eq {g : Gantry} {m : Flight} {f f1 f2 : Feed} {carry : Option Carry}
    (hstation : closeStation m f = f1) (horder : closeOrder m f.vac[g].level f.ctx[g].carry f1 = f2)
    (hcarry : closeCarry m f.vac[g].level f f.ctx[g].carry = carry) :
    f.closeFlight g m = f2.modCtx g fun c => { c with carry := carry, flight := none } := by
  rw [← hcarry, ← horder, ← hstation]
  rfl

/-! ### The station (R106) -/

theorem closeStation_place {m : Flight} {st : StationId} (hkind : m.kind = .place) (hst : m.station = some st)
    (f : Feed) : closeStation m f = f.deliveryUnknown st := by
  simp only [closeStation, hkind, hst]

theorem closeStation_elsewhere {m : Flight} {k : MoveKind} (hkind : m.kind = k) (hne : k ≠ .place) (f : Feed) :
    closeStation m f = f := by
  cases k with
  | place => exact absurd rfl hne
  | travel | pick | reject => simp only [closeStation, hkind]

/-! ### The order -/

theorem closeOrder_gripped {vac : Bool} (hvac : vac = true) (m : Flight) (carry : Option Carry) (f : Feed) :
    closeOrder m vac carry f = f := if_pos hvac

theorem closeOrder_travel {m : Flight} (hkind : m.kind = .travel) (vac : Bool) (carry : Option Carry) (f : Feed) :
    closeOrder m vac carry f = f := by
  simp only [closeOrder, hkind, ite_self]

theorem closeOrder_pick {m : Flight} {vac : Bool} (hkind : m.kind = .pick) (hvac : vac = false) (carry : Option Carry)
    (f : Feed) : closeOrder m vac carry f = f.lowerOut m.tag := by
  simp only [closeOrder, hkind, hvac, Bool.false_eq_true, if_false]

theorem closeOrder_place {m : Flight} {vac : Bool} (hkind : m.kind = .place) (hvac : vac = false) (carry : Option Carry)
    (f : Feed) : closeOrder m vac carry f = f.onOrder carry Feed.lostPanel := by
  simp only [closeOrder, hkind, hvac, Bool.false_eq_true, if_false]

theorem closeOrder_reject {m : Flight} {vac : Bool} (hkind : m.kind = .reject) (hvac : vac = false)
    (carry : Option Carry) (f : Feed) : closeOrder m vac carry f = f.onOrder carry Feed.lowerOut := by
  simp only [closeOrder, hkind, hvac, Bool.false_eq_true, if_false]

/-! ### The carry -/

theorem closeCarry_travel {m : Flight} (hkind : m.kind = .travel) (vac : Bool) (f : Feed) (carry : Option Carry) :
    closeCarry m vac f carry = carry := by
  simp only [closeCarry, hkind]

/-- A panel gripped by a PICK is the order's, or an orphan where the order is no longer in the list (R66). -/
theorem closeCarry_pick {m : Flight} {vac : Bool} {len : Nat} (hkind : m.kind = .pick) (hlen : m.len = some len)
    (hvac : vac = true) (f : Feed) (carry : Option Carry) :
    closeCarry m vac f carry = some ⟨m.tag, len, if (f.findOrder m.tag).isSome then .order else .orphan⟩ := by
  simp only [closeCarry, hkind, hlen, hvac, if_true, Option.getD_some]

theorem closeCarry_gripped {m : Flight} {vac : Bool} (hkind : m.kind = .place ∨ m.kind = .reject) (hvac : vac = true)
    (f : Feed) (carry : Option Carry) : closeCarry m vac f carry = carry := by
  rcases hkind with hkind | hkind <;> simp only [closeCarry, hkind, hvac, if_true]

theorem closeCarry_released {m : Flight} {k : MoveKind} {vac : Bool} (hkind : m.kind = k) (hne : k ≠ .travel)
    (hvac : vac = false) (f : Feed) (carry : Option Carry) : closeCarry m vac f carry = none := by
  cases k with
  | travel => exact absurd rfl hne
  | pick | place | reject => simp only [closeCarry, hkind, hvac, Bool.false_eq_true, if_false]

/-- Settles O22: for each kind and grip, the station step, the order step and the carry. -/
theorem unsettledCloseGoesByTheGrip : Obligations.UnsettledCloseGoesByTheGrip := by
  intro f g m len st vac carry cleared stepped
  refine ⟨fun hkind => ?travel, fun hkind hlen hvac hlisted => ?pickOrder, fun hkind hlen hvac hgone => ?pickOrphan,
    fun hkind hvac => ?pickNone, fun hkind hst hvac => ?placeKept, fun hkind hst hvac x htag => ?placeLost,
    fun hkind hst hvac htag => ?placeNone, fun hkind hvac => ?rejectKept, fun hkind hvac x htag => ?rejectOrder,
    fun hkind hvac htag => ?rejectNone⟩
  case travel =>
    exact closeFlight_eq (closeStation_elsewhere hkind (by decide) f) (closeOrder_travel hkind ..)
      (closeCarry_travel hkind ..)
  case pickOrder =>
    refine closeFlight_eq (closeStation_elsewhere hkind (by decide) f) (closeOrder_gripped hvac ..)
      ((closeCarry_pick hkind hlen hvac ..).trans ?_)
    rw [if_pos hlisted]
  case pickOrphan =>
    refine closeFlight_eq (closeStation_elsewhere hkind (by decide) f) (closeOrder_gripped hvac ..)
      ((closeCarry_pick hkind hlen hvac ..).trans ?_)
    rw [hgone]
    rfl
  case pickNone =>
    exact closeFlight_eq (closeStation_elsewhere hkind (by decide) f) (closeOrder_pick hkind hvac ..)
      (closeCarry_released hkind (by decide) hvac ..)
  case placeKept =>
    exact closeFlight_eq (closeStation_place hkind hst f) (closeOrder_gripped hvac ..)
      (closeCarry_gripped (.inl hkind) hvac ..)
  case placeLost =>
    exact closeFlight_eq (closeStation_place hkind hst f)
      ((closeOrder_place hkind hvac ..).trans (onOrder_some htag ..))
      (closeCarry_released hkind (by decide) hvac ..)
  case placeNone =>
    exact closeFlight_eq (closeStation_place hkind hst f)
      ((closeOrder_place hkind hvac ..).trans (onOrder_none htag ..))
      (closeCarry_released hkind (by decide) hvac ..)
  case rejectKept =>
    exact closeFlight_eq (closeStation_elsewhere hkind (by decide) f) (closeOrder_gripped hvac ..)
      (closeCarry_gripped (.inr hkind) hvac ..)
  case rejectOrder =>
    exact closeFlight_eq (closeStation_elsewhere hkind (by decide) f)
      ((closeOrder_reject hkind hvac ..).trans (onOrder_some htag ..))
      (closeCarry_released hkind (by decide) hvac ..)
  case rejectNone =>
    exact closeFlight_eq (closeStation_elsewhere hkind (by decide) f)
      ((closeOrder_reject hkind hvac ..).trans (onOrder_none htag ..))
      (closeCarry_released hkind (by decide) hvac ..)

end Sys2Proof.Machine
end

section
/-! SUPPORT. Completion records: their classification, and what each class does to the feed side (R53 to R65). -/

namespace Sys2Proof.Machine

/-! ### The record at the port, and its classification (R53, R54) -/

/-- A drive's completion record is classified, takes its effect and is posted with its stamp (R53). -/
theorem exec_completionWrite {s : State} {g : Gantry} {tag : MasterTag} {addr : Addr} {ws : List PWord} {f : Feed}
    {stamp : Stamp} (hown : OwnerRecord s tag addr ws (.completion g))
    (h : complete g (.ofWords (dataOf ws)) s.feed = (f, stamp)) :
    exec (.completionWrite tag addr ws) s = .next (s.completes f g tag addr ws stamp) := by
  have htaken : s.unanswered.takeCompletion g (writeTxn tag addr ws) (dataOf ws) =
      ({ s.unanswered with feed := f }).post (writeTxn tag addr ws) (.completion g)
        (stampWords (dataOf ws) 3 stamp.code) false s.boundNow := by
    unfold State.takeCompletion
    rw [State.unanswered_feed, h]
    rfl
  exact congrArg done ((State.present_owner hown).trans htaken)

theorem matchedFlight_eq_some_iff (r : CompletionRec) (c : Ctx) (m : Flight) :
    matchedFlight r c = some m ↔ c.flight = some m ∧ r.toggle = m.toggle ∧ r.kind = m.kind.code := by
  unfold matchedFlight
  cases c.flight with
  | none => simp
  | some x =>
    simp only [matchesFlight, Bool.and_eq_true, decide_eq_true_eq, Option.ite_none_right_eq_some, Option.some.injEq]
    exact ⟨fun ⟨h, hx⟩ => ⟨hx, hx ▸ h⟩, fun ⟨hx, h⟩ => ⟨hx ▸ h, hx⟩⟩

theorem matchedFlight_none {s : State} {g : Gantry} {r : CompletionRec} (h : ∀ m, ¬Matches s g m r) :
    matchedFlight r s.feed.ctx[g] = none :=
  Option.eq_none_iff_forall_ne_some.mpr fun m hm => h m ((matchedFlight_eq_some_iff ..).mp hm)

theorem complete_idle {g : Gantry} {f : Feed} (h : f.ctx[g].state = .idle) (r : CompletionRec) :
    complete g r f = completeIdle g r f := by
  unfold complete
  rw [h]

theorem complete_moving {g : Gantry} {f : Feed} (h : f.ctx[g].state = .moving) (r : CompletionRec) :
    complete g r f = completeMoving g r f := by
  unfold complete
  rw [h]

theorem complete_halted {g : Gantry} {f : Feed} (h : f.ctx[g].state = .halted) (r : CompletionRec) :
    complete g r f = completeHalted g r f := by
  unfold complete
  rw [h]

/-- A completion of no move, or with an unknown outcome, halts a MOVING context (R54, R56). -/
theorem completeMoving_mismatch {s : State} {g : Gantry} {r : CompletionRec}
    (h : r.ending = .unknown ∨ ∀ m, ¬Matches s g m r) :
    completeMoving g r s.feed = (s.feed.haltCtx g .mismatch none, .mismatch) := by
  unfold completeMoving
  rcases h with hend | hnone
  · rw [hend]
    cases matchedFlight r s.feed.ctx[g] <;> rfl
  · rw [matchedFlight_none hnone]

theorem completeMoving_clean {s : State} {g : Gantry} {m : Flight} {r : CompletionRec} (hmatch : Matches s g m r)
    (hend : r.ending = .reached ∨ r.ending = .short) : completeMoving g r s.feed = (s.feed.endClean g m r, .taken) := by
  unfold completeMoving
  rw [(matchedFlight_eq_some_iff ..).mpr hmatch]
  rcases hend with hend | hend <;> rw [hend]

theorem completeMoving_fault {s : State} {g : Gantry} {m : Flight} {r : CompletionRec} (hmatch : Matches s g m r)
    (hend : r.ending = .fault) : completeMoving g r s.feed = (s.feed.endFaulted g m r .driveFault, .taken) := by
  unfold completeMoving
  rw [(matchedFlight_eq_some_iff ..).mpr hmatch, hend]

theorem completeHalted_match {s : State} {g : Gantry} {m : Flight} {r : CompletionRec} (hmatch : Matches s g m r) :
    completeHalted g r s.feed = (s.feed.endLate g m r, .late) := by
  unfold completeHalted
  rw [(matchedFlight_eq_some_iff ..).mpr hmatch]

theorem completeHalted_mismatch {s : State} {g : Gantry} {r : CompletionRec} (h : ∀ m, ¬Matches s g m r) :
    completeHalted g r s.feed = (s.feed.furtherFault g .mismatch, .mismatch) := by
  unfold completeHalted
  rw [matchedFlight_none h]

/-- Settles O17: the rows of the classification that match no move in flight. -/
theorem completionWriteDuplicateOrMismatch : Obligations.CompletionWriteDuplicateOrMismatch := by
  intro s g tag addr ws r c hown
  refine ⟨fun hidle hsame => ?duplicate, fun hidle hnew => ?idle, fun hmoving h => ?moving, fun hhalted h => ?halted⟩
  case duplicate => exact exec_completionWrite hown ((complete_idle hidle r).trans (if_pos hsame))
  case idle => exact exec_completionWrite hown ((complete_idle hidle r).trans (if_neg hnew))
  case moving => exact exec_completionWrite hown ((complete_moving hmoving r).trans (completeMoving_mismatch h))
  case halted => exact exec_completionWrite hown ((complete_halted hhalted r).trans (completeHalted_mismatch h))

/-! ### The span test of a clean ending (R57, R62) -/

/-- A clean ending beyond the rail, or whose shrink is not granted, is a span fault (R62). -/
theorem endClean_span {g : Gantry} {m : Flight} {r : CompletionRec} {f : Feed}
    (h : f.cfg.railLen ≤ r.reached ∨ shrink f.rail g (endingSpan g m r f) = none) :
    f.endClean g m r = f.endFaulted g m r .span := by
  have hrail : endingRail g m r f = none := by
    unfold endingRail
    rcases h with hbeyond | hshrink
    · exact if_neg (Nat.not_lt.mpr hbeyond)
    · rw [hshrink, ite_self]
  unfold Feed.endClean
  rw [hrail]

theorem endClean_granted {g : Gantry} {m : Flight} {r : CompletionRec} {t : Rail} {f : Feed}
    (hon : r.reached < f.cfg.railLen) (hshrink : shrink f.rail g (endingSpan g m r f) = some t) :
    f.endClean g m r = f.settle g m r t := by
  have hrail : endingRail g m r f = some t := (if_pos hon).trans hshrink
  unfold Feed.endClean
  rw [hrail]

/-- Settles O21: each ending that closes the move unsettled is the position, the halt if one, and the close. -/
theorem completionWriteClosesUnsettled : Obligations.CompletionWriteClosesUnsettled := by
  intro s g tag addr ws m r pos f closed carry hown hmatch
  refine ⟨fun hmoving hend hspan => ?span, fun hmoving hend => ?drive, fun hhalted => ?late⟩
  case span =>
    refine exec_completionWrite hown ((complete_moving hmoving r).trans
      ((completeMoving_clean hmatch hend).trans ?_))
    rw [endClean_span hspan]
    rfl
  case drive => exact exec_completionWrite hown ((complete_moving hmoving r).trans (completeMoving_fault hmatch hend))
  case late => exact exec_completionWrite hown ((complete_halted hhalted r).trans (completeHalted_match hmatch))

/-! ### Clean endings (R57) -/

/-- A clean ending whose shrink is granted: the carry, the effects on the order and the station, the return to IDLE at
the position reached, and the grip check (R57). -/
theorem exec_completionWrite_clean {s : State} {g : Gantry} {tag : MasterTag} {addr : Addr} {ws : List PWord}
    {m : Flight} {t : Rail} {carry : Option Carry} {e : Feed} (hown : OwnerRecord s tag addr ws (.completion g))
    (hends : EndsClean s g m (.ofWords (dataOf ws)) carry t)
    (hcarry : settledCarry m (CompletionRec.ofWords (dataOf ws)).ending s.feed.vac[g].level s.feed.ctx[g].carry = carry)
    (heffects : settleEffects g m (CompletionRec.ofWords (dataOf ws)).ending s.feed.vac[g].level s.feed.ctx[g].carry
      (s.feed.setRail t) = e) :
    exec (.completionWrite tag addr ws) s = .next (s.completes
      ((e.modCtx g (idleAt (.ofWords (dataOf ws)) carry)).gripCheck g) g tag addr ws .taken) := by
  obtain ⟨hmoving, hmatch, hend, hon, hshrink⟩ := hends
  subst hcarry heffects
  refine exec_completionWrite hown ((complete_moving hmoving _).trans ((completeMoving_clean hmatch hend).trans ?_))
  rw [endClean_granted hon hshrink]
  rfl

end Sys2Proof.Machine
end

section
/-! SUPPORT. Clean endings by the kind of the move, the outcome and the grip: the carry, and the effects on the order
and the station (R57 to R61, R104, R105, R107). -/

namespace Sys2Proof.Machine

/-! ### The carry once the move is settled -/

theorem not_reached_of_short {e : Ending} (h : e = .short) : e ≠ .reached := by
  rw [h]
  decide

theorem settledCarry_travel {m : Flight} (hkind : m.kind = .travel) (e : Ending) (vac : Bool) (carry : Option Carry) :
    settledCarry m e vac carry = carry := by
  simp only [settledCarry, hkind]

theorem settledCarry_picked {m : Flight} {len : Nat} {e : Ending} {vac : Bool} (hkind : m.kind = .pick)
    (hlen : m.len = some len) (hend : e = .reached) (hvac : vac = true) (carry : Option Carry) :
    settledCarry m e vac carry = some ⟨m.tag, len, .order⟩ := by
  simp only [settledCarry, hkind, hlen, hend, hvac, and_self, if_true, Option.getD_some]

theorem settledCarry_notPicked {m : Flight} {e : Ending} {vac : Bool} (hkind : m.kind = .pick)
    (h : e = .short ∨ vac = false) (carry : Option Carry) : settledCarry m e vac carry = none := by
  have hnot : ¬(e = .reached ∧ vac = true) := fun ⟨hend, hvac⟩ =>
    h.elim (fun hshort => not_reached_of_short hshort hend) fun hno => Bool.eq_false_iff.mp hno hvac
  simp only [settledCarry, hkind, if_neg hnot]

theorem settledCarry_released {m : Flight} {e : Ending} {vac : Bool} (hkind : m.kind = .place ∨ m.kind = .reject)
    (hend : e = .reached) (hvac : vac = false) (carry : Option Carry) : settledCarry m e vac carry = none := by
  rcases hkind with hkind | hkind <;> simp only [settledCarry, hkind, hend, hvac, and_self, if_true]

theorem settledCarry_kept {m : Flight} {e : Ending} {vac : Bool} (hkind : m.kind = .place ∨ m.kind = .reject)
    (h : e = .short ∨ vac = true) (carry : Option Carry) : settledCarry m e vac carry = carry := by
  have hnot : ¬(e = .reached ∧ vac = false) := fun ⟨hend, hvac⟩ =>
    h.elim (fun hshort => not_reached_of_short hshort hend) (Bool.eq_false_iff.mp hvac)
  rcases hkind with hkind | hkind <;> simp only [settledCarry, hkind, if_neg hnot]

/-! ### The effects of a TRAVEL and a REJECT (R60, R61) -/

theorem settleEffects_travel {m : Flight} (hkind : m.kind = .travel) (g : Gantry) (e : Ending) (vac : Bool)
    (carry : Option Carry) (f : Feed) : settleEffects g m e vac carry f = f := by
  simp only [settleEffects, hkind]

theorem settleEffects_reject {m : Flight} (hkind : m.kind = .reject) (g : Gantry) (e : Ending) (vac : Bool)
    (carry : Option Carry) (f : Feed) : settleEffects g m e vac carry f = settleReject g e vac carry f := by
  simp only [settleEffects, hkind]

theorem settleReject_released {e : Ending} {vac : Bool} (hend : e = .reached) (hvac : vac = false) (g : Gantry)
    (carry : Option Carry) (f : Feed) :
    settleReject g e vac carry f = (f.onOrder carry Feed.lowerOut).count .rejects :=
  (if_pos hend).trans (if_neg (Bool.eq_false_iff.mp hvac))

theorem settleReject_gripped {e : Ending} {vac : Bool} (hend : e = .reached) (hvac : vac = true) (g : Gantry)
    (carry : Option Carry) (f : Feed) : settleReject g e vac carry f = f.raise .rejectNotReleased g.val 0 :=
  (if_pos hend).trans (if_pos hvac)

theorem settleReject_short {e : Ending} (hend : e = .short) (g : Gantry) (vac : Bool) (carry : Option Carry)
    (f : Feed) : settleReject g e vac carry f = f := if_neg (not_reached_of_short hend)

/-- Settles O18: the carry and the effects of each row. -/
theorem completionWriteSettlesTravelAndReject : Obligations.CompletionWriteSettlesTravelAndReject := by
  intro s g tag addr ws m t r carry vac f result hown
  have effects (hkind : m.kind = .reject) :
      settleEffects g m r.ending vac carry f = settleReject g r.ending vac carry f :=
    settleEffects_reject hkind ..
  refine ⟨fun hkind hends => ?travel, fun hkind hend hvac hends => ⟨fun x htag => ?released, fun htag => ?noOrder⟩,
    fun hkind hend hvac hends => ?gripped, fun hkind hend hends => ?short⟩
  case travel =>
    exact exec_completionWrite_clean hown hends (settledCarry_travel hkind ..) (settleEffects_travel hkind ..)
  case released =>
    refine exec_completionWrite_clean hown hends (settledCarry_released (.inr hkind) hend hvac _)
      ((effects hkind).trans ((settleReject_released hend hvac ..).trans ?_))
    rw [onOrder_some htag]
    rfl
  case noOrder =>
    refine exec_completionWrite_clean hown hends (settledCarry_released (.inr hkind) hend hvac _)
      ((effects hkind).trans ((settleReject_released hend hvac ..).trans ?_))
    rw [onOrder_none htag]
  case gripped =>
    exact exec_completionWrite_clean hown hends
      (settledCarry_kept (.inr hkind) (.inr hvac) _)
      ((effects hkind).trans (settleReject_gripped hend hvac ..))
  case short =>
    exact exec_completionWrite_clean hown hends
      (settledCarry_kept (.inr hkind) (.inl hend) _)
      ((effects hkind).trans (settleReject_short hend ..))

/-! ### The effects of a PICK (R58) -/

theorem settleEffects_pick {m : Flight} (hkind : m.kind = .pick) (g : Gantry) (e : Ending) (vac : Bool)
    (carry : Option Carry) (f : Feed) : settleEffects g m e vac carry f = settlePick m e vac f := by
  simp only [settleEffects, hkind]

theorem settlePick_gripped {e : Ending} {vac : Bool} (hend : e = .reached) (hvac : vac = true) (m : Flight) (f : Feed) :
    settlePick m e vac f = f := (if_pos hend).trans (if_pos hvac)

theorem settlePick_mispick {e : Ending} {vac : Bool} (hend : e = .reached) (hvac : vac = false) (m : Flight)
    (f : Feed) : settlePick m e vac f = f.mispicked m.tag := (if_pos hend).trans (if_neg (Bool.eq_false_iff.mp hvac))

theorem settlePick_short {e : Ending} (hend : e = .short) (m : Flight) (vac : Bool) (f : Feed) :
    settlePick m e vac f = f.lowerOut m.tag := if_neg (not_reached_of_short hend)

/-- Settles O19: the three rows of a PICK. -/
theorem completionWriteSettlesPick : Obligations.CompletionWriteSettlesPick := by
  intro s g tag addr ws m t len r vac f result hown hkind hlen
  have effects : settleEffects g m r.ending vac s.feed.ctx[g].carry f = settlePick m r.ending vac f :=
    settleEffects_pick hkind ..
  refine ⟨fun hend hvac hends => ?picked, fun hend hvac hends => ?mispick, fun hend hends => ?short⟩
  case picked =>
    exact exec_completionWrite_clean hown hends (settledCarry_picked hkind hlen hend hvac _)
      (effects.trans (settlePick_gripped hend hvac ..))
  case mispick =>
    exact exec_completionWrite_clean hown hends
      (settledCarry_notPicked hkind (.inr hvac) _)
      (effects.trans (settlePick_mispick hend hvac ..))
  case short =>
    exact exec_completionWrite_clean hown hends
      (settledCarry_notPicked hkind (.inl hend) _)
      (effects.trans (settlePick_short hend ..))

/-! ### The effects of a PLACE (R59, R104, R105, R107) -/

theorem atStation_of {m : Flight} {st : StationId} (h : m.station = some st) (k : StationId → Feed → Feed) (f : Feed) :
    atStation m k f = k st f := by
  unfold atStation
  rw [h]

theorem settleEffects_place {m : Flight} (hkind : m.kind = .place) (g : Gantry) (e : Ending) (vac : Bool)
    (carry : Option Carry) (f : Feed) : settleEffects g m e vac carry f = settlePlace g m e vac carry f := by
  simp only [settleEffects, hkind]

theorem settlePlace_released {m : Flight} {st : StationId} {e : Ending} {vac : Bool} {carry : Option Carry} {x : Nat}
    (hst : m.station = some st) (htag : orderTag carry = some x) (hend : e = .reached) (hvac : vac = false) (g : Gantry)
    (f : Feed) : settlePlace g m e vac carry f = (f.placedPanel x).landed st := by
  simp only [settlePlace, hend, hvac, Bool.false_eq_true, if_true, if_false, atStation_of hst, onOrder_some htag]

theorem settlePlace_gripped {m : Flight} {st : StationId} {e : Ending} {vac : Bool} (hst : m.station = some st)
    (hend : e = .reached) (hvac : vac = true) (g : Gantry) (carry : Option Carry) (f : Feed) :
    settlePlace g m e vac carry f = (f.raise .placeNotReleased g.val st.val).returned st := by
  simp only [settlePlace, hend, hvac, if_true, atStation_of hst]

theorem settlePlace_short {m : Flight} {st : StationId} {e : Ending} (hst : m.station = some st) (hend : e = .short)
    (g : Gantry) (vac : Bool) (carry : Option Carry) (f : Feed) : settlePlace g m e vac carry f = f.returned st :=
  (if_neg (not_reached_of_short hend)).trans (atStation_of hst ..)

/-- A placed panel changes nothing at the stations, and takes no time (R59, R86). -/
theorem placedPanel_stations (x : Nat) (f : Feed) : (f.placedPanel x).stations = f.stations := by
  unfold Feed.placedPanel
  split <;> [(split <;> simp); rfl]

theorem placedPanel_time (x : Nat) (f : Feed) : (f.placedPanel x).time = f.time := by
  unfold Feed.placedPanel
  split <;> [(split <;> simp); rfl]

/-- The landing of a released panel, by the station as it stood before: LOADED where its panel was seen early, else
LANDING with the timer started (R104, R107). -/
theorem landed_eq {f : Feed} {st : StationId} {y : Station} {now : Time} (hst : f.stations[st] = y)
    (hnow : f.time = now) : f.landed st =
      if y.state = .assigned then
        f.modStation st fun y => { y with
          state := if y.early then .loaded else .landing
          landingStart := if y.early then y.landingStart else some now
          early := false }
      else f := by
  subst hst hnow
  unfold Feed.landed
  refine if_congr Iff.rfl (congrArg (f.modStation st) (funext fun y => ?_)) rfl
  obtain ⟨_, _, _, early, _⟩ := y
  cases early <;> rfl

/-- A placement returned, by the station as it stood before (R105, R107). -/
theorem returned_eq {f : Feed} {st : StationId} {y : Station} (hst : f.stations[st] = y) :
    f.returned st =
      if y.state = .assigned then
        if y.present then f.blockStation st .unexpectedPanel
        else f.modStation st fun y => { y with state := .empty, early := false }
      else f := by
  rw [← hst]
  rfl

/-- Settles O20: the three rows of a PLACE, each with the station as it stands before the ending. -/
theorem completionWriteSettlesPlace : Obligations.CompletionWriteSettlesPlace := by
  intro s g tag addr ws m t st x r carry vac f y landing back result hown hkind hst htag
  have effects : settleEffects g m r.ending vac carry f = settlePlace g m r.ending vac carry f :=
    settleEffects_place hkind ..
  refine ⟨fun hend hvac hends => ?released, fun hend hvac hends => ?gripped, fun hend hends => ?short⟩
  case released =>
    exact exec_completionWrite_clean hown hends (settledCarry_released (.inl hkind) hend hvac _)
      (effects.trans ((settlePlace_released hst htag hend hvac ..).trans
        (landed_eq (by rw [placedPanel_stations]; rfl) (placedPanel_time x f))))
  case gripped =>
    exact exec_completionWrite_clean hown hends
      (settledCarry_kept (.inl hkind) (.inr hvac) _)
      (effects.trans ((settlePlace_gripped hst hend hvac ..).trans (returned_eq (by rw [Feed.raise_stations]; rfl))))
  case short =>
    exact exec_completionWrite_clean hown hends
      (settledCarry_kept (.inl hkind) (.inl hend) _)
      (effects.trans ((settlePlace_short hst hend ..).trans (returned_eq rfl)))

end Sys2Proof.Machine
end

section
/-! SUPPORT. The removal of an entry, and the head of a station (R82, R83, R87). -/

namespace Sys2Proof.Machine

/-- The dependency of an entry on the order of a tag, satisfied (R83). -/
def Order.satisfied (tag : Nat) (o : Order) : Order := if o.dep = tag then { o with dep := 0 } else o

theorem removeOrder_eq (tag : Nat) (os : List Order) :
    removeOrder tag os = (os.filter fun o => o.tag != tag).map (Order.satisfied tag) := rfl

theorem satisfied_tag (tag : Nat) (o : Order) : (o.satisfied tag).tag = o.tag := by
  unfold Order.satisfied; split <;> rfl

theorem satisfied_named {tag : Nat} {o : Order} (h : o.dep = tag) : o.satisfied tag = { o with dep := 0 } := if_pos h

theorem satisfied_other {tag : Nat} {o : Order} (h : o.dep ≠ tag) : o.satisfied tag = o := if_neg h

theorem satisfied_dep (tag : Nat) (o : Order) : (o.satisfied tag).dep ≠ tag ∨ tag = 0 := by
  by_cases h : o.dep = tag
  · rw [satisfied_named h]
    exact (Nat.eq_zero_or_pos tag).symm.imp_left fun hpos => Nat.ne_of_lt hpos
  · rw [satisfied_other h]
    exact .inl h

/-- A removal leaves every other entry, its dependency on the removed one satisfied (R83, R87). -/
theorem mem_removeOrder {tag : Nat} {os : List Order} {x : Order} :
    x ∈ removeOrder tag os ↔ ∃ o ∈ os, o.tag ≠ tag ∧ o.satisfied tag = x := by
  simp only [removeOrder_eq, List.mem_map, List.mem_filter, bne_iff_ne, and_assoc]

/-- A removal keeps the order of the others (R87). -/
theorem removeOrder_tags (tag : Nat) (os : List Order) :
    (removeOrder tag os).map (·.tag) = (os.map (·.tag)).filter (· != tag) := by
  rw [removeOrder_eq, List.map_map, List.filter_map]
  exact List.map_congr_left fun o _ => satisfied_tag tag o

/-- The earliest-admitted entry for a station is its head (R82). -/
theorem headOf_earliest {f : Feed} {st : StationId} {before after : List Order} {o : Order}
    (horders : f.orders = before ++ o :: after) (ho : o.station = st) (hnone : ∀ x ∈ before, x.station ≠ st) :
    f.headOf st = some o := by
  rw [Feed.headOf, List.find?_eq_some_iff_append]
  exact ⟨beq_iff_eq.mpr ho, before, after, horders, fun x hx => by simpa using hnone x hx⟩

theorem headOf_none {f : Feed} {st : StationId} (hnone : ∀ x ∈ f.orders, x.station ≠ st) : f.headOf st = none := by
  rw [Feed.headOf, List.find?_eq_none]
  exact fun x hx => by simpa using hnone x hx

/-- Settles O27: a removal filters the list and satisfies each dependency left, and a head is the first entry found. -/
theorem removalAndStationHeads : Obligations.RemovalAndStationHeads := by
  intro f tag st
  refine ⟨removeOrder_tags tag f.orders, fun x hx => ?satisfied, fun o ho hne hdep => ?kept, fun o ho hne hdep => ?named,
    fun before o after => headOf_earliest, headOf_none⟩
  case satisfied =>
    obtain ⟨o, _, _, rfl⟩ := mem_removeOrder.mp hx
    exact satisfied_dep tag o
  case kept => exact mem_removeOrder.mpr ⟨o, ho, hne, satisfied_other hdep⟩
  case named => exact mem_removeOrder.mpr ⟨o, ho, hne, satisfied_named hdep⟩

end Sys2Proof.Machine
end

section
/-! SUPPORT. The order list as its laws see it: each entry by its tag, its out count and its remaining count (R74, R92),
what the operations on orders change of these, and the many operations that leave the list alone. -/

namespace Sys2Proof.Machine

/-- What the laws of the order list see of an entry (R92). -/
structure Tally where
  tag : Nat
  out : Nat
  remaining : Nat

def Order.tally (o : Order) : Tally := ⟨o.tag, o.out, o.remaining⟩

/-- The order list as its laws see it. -/
def Feed.tallies (f : Feed) : List Tally := f.orders.map Order.tally

theorem tallies_of_orders {f f' : Feed} (h : f'.orders = f.orders) : f'.tallies = f.tallies := by
  rw [Feed.tallies, h, Feed.tallies]

theorem mem_tallies {f : Feed} {o : Order} (h : o ∈ f.orders) : o.tally ∈ f.tallies := List.mem_map_of_mem h

/-! ### Operations that leave the list alone -/

@[simp] theorem Feed.blockStation_orders (st : StationId) (why : StReason) (f : Feed) :
    (f.blockStation st why).orders = f.orders := by simp [Feed.blockStation]

@[simp] theorem Feed.faultStation_orders (st : StationId) (why : StReason) (f : Feed) :
    (f.faultStation st why).orders = f.orders := by simp [Feed.faultStation]

@[simp] theorem Feed.toGuard_orders (st : StationId) (f : Feed) : (f.toGuard st).orders = f.orders := rfl

@[simp] theorem Feed.landed_orders (st : StationId) (f : Feed) : (f.landed st).orders = f.orders := by
  unfold Feed.landed; split <;> simp

@[simp] theorem Feed.returned_orders (st : StationId) (f : Feed) : (f.returned st).orders = f.orders := by
  unfold Feed.returned; split <;> [(split <;> simp); rfl]

@[simp] theorem Feed.deliveryUnknown_orders (st : StationId) (f : Feed) : (f.deliveryUnknown st).orders = f.orders := by
  unfold Feed.deliveryUnknown; split <;> simp

theorem atStation_orders {h : StationId → Feed → Feed} (hh : ∀ st f, (h st f).orders = f.orders) (m : Flight)
    (f : Feed) : (atStation m h f).orders = f.orders := by
  unfold atStation; split <;> [exact hh _ f; rfl]

@[simp] theorem closeStation_orders (m : Flight) (f : Feed) : (closeStation m f).orders = f.orders := by
  unfold closeStation; split <;> simp

@[simp] theorem Feed.reported_orders (st : StationId) (saw : Saw) (f : Feed) :
    (f.reported st saw).orders = f.orders := by
  unfold Feed.reported; split <;> split <;> simp

@[simp] theorem report_orders (st : StationId) (r : ReportRec) (f : Feed) : (report st r f).1.orders = f.orders := by
  unfold report; split <;> simp

@[simp] theorem Feed.presentRisen_orders (st : StationId) (f : Feed) : (f.presentRisen st).orders = f.orders := by
  unfold Feed.presentRisen; split <;> simp

@[simp] theorem Feed.presentFallen_orders (st : StationId) (f : Feed) : (f.presentFallen st).orders = f.orders := by
  unfold Feed.presentFallen
  split
  case h_6 => split <;> simp
  all_goals simp

@[simp] theorem Feed.resetStations_orders (f : Feed) : f.resetStations.orders = f.orders := by
  have one (f : Feed) (st : StationId) : (f.resetStation st).orders = f.orders := by
    unfold Feed.resetStation; split <;> simp
  simp [Feed.resetStations, one]

@[simp] theorem unblockStation_orders (a : Nat) (f : Feed) : (unblockStation a f).1.orders = f.orders := by
  unfold unblockStation; split <;> [(split <;> rfl); rfl]

@[simp] theorem ackEvents_orders (a : Nat) (f : Feed) : (ackEvents a f).1.orders = f.orders := by
  unfold ackEvents; split_ifs <;> rfl

@[simp] theorem Feed.memFault_orders (n : Nat) (a : Area) (f : Feed) : (f.memFault n a).orders = f.orders := by
  simp [Feed.memFault]

@[simp] theorem Feed.endNotice_orders (st : StationId) (b : Bool) (f : Feed) :
    (f.endNotice st b).orders = f.orders := by
  simp only [Feed.endNotice]
  split
  · exact Feed.memFault_orders ..
  · rfl

@[simp] theorem Feed.endEvent_orders (b : Bool) (f : Feed) : (f.endEvent b).orders = f.orders := by
  unfold Feed.endEvent
  split
  · rfl
  · split
    · simp only
      split
      · rfl
      · exact Feed.memFault_orders ..
    · rfl

@[simp] theorem Feed.mutualTest_orders (g : Gantry) (kind : Blocking) (f : Feed) :
    (f.mutualTest g kind).orders = f.orders := by
  unfold Feed.mutualTest
  split
  · exact Feed.raise_orders ..
  · rfl

/-! ### Operations on one entry -/

/-- The tally of one tag changed. -/
def Tally.atTag (tag : Nat) (t : Tally → Tally) (e : Tally) : Tally := if e.tag = tag then t e else e

/-- A tally with the out count lowered by one. -/
def Tally.lower (e : Tally) : Tally := { e with out := e.out - 1 }

/-- A change of one entry, as the laws see it. -/
theorem modOrder_tallies {tag : Nat} {k : Order → Order} (t : Tally → Tally) (h : ∀ o, (k o).tally = t o.tally)
    (f : Feed) : (f.modOrder tag k).tallies = f.tallies.map (Tally.atTag tag t) := by
  have one (o : Order) : (if o.tag = tag then k o else o).tally = Tally.atTag tag t o.tally := by
    unfold Tally.atTag
    split
    case isTrue ho => exact (h o).trans (if_pos ho).symm
    case isFalse ho => exact (if_neg ho).symm
  rw [Feed.tallies, Feed.tallies, Feed.modOrder_orders, List.map_map, List.map_map]
  exact List.map_congr_left fun o _ => one o

/-- A change that the laws do not see. -/
theorem modOrder_tallies_same {tag : Nat} {k : Order → Order} (h : ∀ o, (k o).tally = o.tally) (f : Feed) :
    (f.modOrder tag k).tallies = f.tallies := by
  have same : Tally.atTag tag id = id := funext fun _ => ite_self _
  rw [modOrder_tallies id h, same, List.map_id]

theorem lowerOut_tallies (tag : Nat) (f : Feed) :
    (f.lowerOut tag).tallies = f.tallies.map (Tally.atTag tag Tally.lower) :=
  modOrder_tallies Tally.lower (fun _ => rfl) f

/-- That an entry becomes FAULTED is not seen by the laws (R85). -/
theorem faultOrder_tallies (tag : Nat) (why : OrderFault) (f : Feed) : (f.faultOrder tag why).tallies = f.tallies := by
  unfold Feed.faultOrder
  split
  · split
    · rw [tallies_of_orders (Feed.raise_orders ..)]
      exact modOrder_tallies_same (fun _ => by rfl) f
    · rfl
  · rfl

theorem lostPanel_tallies (tag : Nat) (f : Feed) : (f.lostPanel tag).tallies = (f.lowerOut tag).tallies :=
  faultOrder_tallies tag .lost _

theorem countMispick_tallies (tag n : Nat) (f : Feed) : (f.countMispick tag n).tallies = (f.lowerOut tag).tallies := by
  rw [Feed.countMispick, tallies_of_orders (Feed.raise_orders ..), tallies_of_orders (Feed.count_orders ..),
    lowerOut_tallies]
  exact modOrder_tallies Tally.lower (fun _ => rfl) f

/-- A mispick lowers the out count (R58); what else it changes of the entry is not seen by the laws. -/
theorem mispicked_tallies (tag : Nat) (f : Feed) : (f.mispicked tag).tallies = (f.lowerOut tag).tallies := by
  cases hfind : f.findOrder tag with
  | none => rw [mispicked_absent hfind, Feed.lowerOut, modOrder_absent hfind]
  | some o =>
    by_cases hbelow : o.mispicks < 2
    · rw [mispicked_below hfind hbelow, countMispick_tallies]
    · rw [mispicked_third hfind (Nat.not_lt.mp hbelow), faultOrder_tallies, countMispick_tallies]

/-- The removal of an entry, as the laws see it (R83, R87). -/
theorem removeOrder_tallies (tag : Nat) (os : List Order) :
    (removeOrder tag os).map Order.tally = (os.map Order.tally).filter (·.tag != tag) := by
  have dep (o : Order) : (o.satisfied tag).tally = o.tally := by
    unfold Order.satisfied; split <;> rfl
  rw [removeOrder_eq, List.map_map, List.filter_map]
  exact List.map_congr_left fun o _ => dep o

end Sys2Proof.Machine
end

section
/-! SUPPORT. The laws of the order list and of what the gantries carry (R74, R92): how they are seen, and the changes
that keep them: a change that they do not see, and a change of one gantry's context with the entry it counts for. -/

namespace Sys2Proof.Machine

/-! ### The laws, from the tallies -/

theorem listed_iff (f : Feed) (tag : Nat) : Listed f tag ↔ ∃ e ∈ f.tallies, e.tag = tag := by
  simp [Listed, Feed.tallies, Order.tally]

theorem listed_of_tallies {f f' : Feed} (h : f'.tallies = f.tallies) {tag : Nat} (hl : Listed f tag) :
    Listed f' tag := by
  rw [listed_iff, h]
  exact (listed_iff f tag).mp hl

theorem listed_iff_find (f : Feed) (tag : Nat) : Listed f tag ↔ (f.findOrder tag).isSome = true := by
  simp [Listed, Feed.findOrder]

theorem find_of_listed {f : Feed} {tag : Nat} (h : Listed f tag) : ∃ o, f.findOrder tag = some o :=
  Option.isSome_iff_exists.mp ((listed_iff_find f tag).mp h)

theorem listLaw_iff (f : Feed) : ListLaw f ↔ f.tallies.length ≤ Config.listCapacity ∧ (∀ e ∈ f.tallies, e.tag ≠ 0) ∧
    (f.tallies.map Tally.tag).Nodup := by
  simp [ListLaw, Feed.tallies, Order.tally, Function.comp_def]

theorem panelLaw_iff (f : Feed) : PanelLaw f ↔ ∀ e ∈ f.tallies, e.out ≤ e.remaining ∧ e.out = countFor f e.tag := by
  simp [PanelLaw, Feed.tallies, Order.tally]

theorem orderInv_iff (f : Feed) : OrderInv f ↔ ListLaw f ∧ PanelLaw f ∧ ∀ g, CarryLaw f g := by
  simp only [OrderInv, Fin.forall_fin_two]

theorem carryLaw_of_orderInv {f : Feed} (h : OrderInv f) (g : Gantry) : CarryLaw f g := ((orderInv_iff f).mp h).2.2 g

/-- A list with fewer of the tags is a list still (R74). -/
theorem listLaw_of_sublist {f f' : Feed} (tags : (f'.tallies.map Tally.tag).Sublist (f.tallies.map Tally.tag))
    (h : ListLaw f) : ListLaw f' := by
  obtain ⟨hlen, hne, hnodup⟩ := (listLaw_iff f).mp h
  refine (listLaw_iff f').mpr ⟨?_, fun e he => ?_, hnodup.sublist tags⟩
  · have := tags.length_le
    rw [List.length_map, List.length_map] at this
    exact this.trans hlen
  · obtain ⟨x, hx, htag⟩ := List.mem_map.mp (tags.subset (List.mem_map_of_mem he))
    exact htag ▸ hne x hx

/-- No two entries share a tag (R74). -/
theorem tally_of_tag {f : Feed} {o : Order} {e : Tally} (h : ListLaw f) (ho : o ∈ f.orders) (he : e ∈ f.tallies)
    (htag : e.tag = o.tag) : e = o.tally :=
  List.inj_on_of_nodup_map ((listLaw_iff f).mp h).2.2 he (mem_tallies ho) htag

/-! ### What a context counts for (R92) -/

theorem countFor_eq (g : Gantry) (f : Feed) (tag : Nat) :
    countFor f tag = bitNat (counts f.ctx[g] tag) + bitNat (counts f.ctx[other g] tag) := by
  rcases gantry_cases g with rfl | rfl
  · rfl
  · exact Nat.add_comm ..

theorem counts_pick {c : Ctx} {m : Flight} (hm : c.flight = some m) (hkind : m.kind = .pick) (hcarry : c.carry = none)
    (tag : Nat) : counts c tag = decide (m.tag = tag) := by
  simp [counts, pickOf, hm, hkind, hcarry, orderTag]

/-- A context with no PICK in flight counts for the order of its carry. -/
theorem counts_carry {c : Ctx} (h : ∀ m, c.flight = some m → m.kind ≠ .pick) (tag : Nat) :
    counts c tag = decide (orderTag c.carry = some tag) := by
  have hpick : pickOf c tag = false := by
    unfold pickOf
    split
    case h_1 m hm => exact decide_eq_false fun hc => h m hm hc.1
    case h_2 => rfl
  rw [counts, hpick, Bool.or_false]

/-- A context with an ORDER carry counts for its order alone. -/
theorem counts_order {c : Ctx} {x : Nat} (htag : orderTag c.carry = some x)
    (h : ∀ m, c.flight = some m → m.kind ≠ .pick) (tag : Nat) : counts c tag = decide (x = tag) := by
  rw [counts_carry h, htag]
  exact decide_eq_decide.mpr (Option.some.injEq ..).to_iff

theorem counts_empty {c : Ctx} (hcarry : c.carry = none) (h : ∀ m, c.flight = some m → m.kind ≠ .pick) (tag : Nat) :
    counts c tag = false := by
  rw [counts_carry h, hcarry]
  rfl

theorem counts_congr {c c' : Ctx} (hcarry : c'.carry = c.carry) (hflight : c'.flight = c.flight) (tag : Nat) :
    counts c' tag = counts c tag := by
  rw [counts, pickOf, hcarry, hflight]
  rfl

theorem counts_of_orderTag {c : Ctx} {tag : Nat} (h : orderTag c.carry = some tag) : counts c tag = true := by
  rw [counts, decide_eq_true h, Bool.true_or]

theorem counts_of_flight {c : Ctx} {m : Flight} (hm : c.flight = some m) (hkind : m.kind = .pick) :
    counts c m.tag = true := by
  simp [counts, pickOf, hm, hkind]

/-! ### The law of one gantry -/

theorem gantryOn_congr {f f' : Feed} (h : f'.cfg = f.cfg) (g : Gantry) : f'.gantryOn g = f.gantryOn g := by
  rw [Feed.gantryOn, h]
  rfl

theorem carryLaw_idle {f : Feed} {g : Gantry} (h : CarryLaw f g) (hidle : f.ctx[g].state = .idle) :
    f.ctx[g].flight = none := by
  obtain ⟨_, _, idle, _⟩ := h
  exact idle hidle

/-- Under a carry no PICK is in flight (R37). -/
theorem notPicking_of_carry {f : Feed} {g : Gantry} (h : CarryLaw f g) (hcarry : f.ctx[g].carry.isSome = true)
    (m : Flight) (hm : f.ctx[g].flight = some m) : m.kind ≠ .pick := by
  obtain ⟨_, picks, _, _⟩ := h
  intro hkind
  rw [(picks m hm hkind).1] at hcarry
  cases hcarry

theorem notPicking_of_rest {c : Ctx} (h : c.flight = none) (m : Flight) (hm : c.flight = some m) : m.kind ≠ .pick := by
  rw [h] at hm
  cases hm

theorem notPicking_of_kind {c : Ctx} {m : Flight} (h : c.flight = some m) (hkind : m.kind ≠ .pick) (m' : Flight)
    (hm' : c.flight = some m') : m'.kind ≠ .pick := Option.some.inj (h.symm.trans hm') ▸ hkind

theorem on_of_carry {f : Feed} {g : Gantry} (h : CarryLaw f g) (hcarry : f.ctx[g].carry.isSome = true) :
    f.gantryOn g = true := by
  obtain ⟨_, _, _, off⟩ := h
  by_contra hoff
  rw [(off (Bool.eq_false_iff.mpr hoff)).2.2] at hcarry
  cases hcarry

/-- A gantry that is not HALTED is enabled (R25). -/
theorem on_of_state {f : Feed} {g : Gantry} (h : CarryLaw f g) (hrun : f.ctx[g].state ≠ .halted) :
    f.gantryOn g = true := by
  obtain ⟨_, _, _, off⟩ := h
  by_contra hoff
  exact hrun (off (Bool.eq_false_iff.mpr hoff)).1

theorem on_of_flight {f : Feed} {g : Gantry} {m : Flight} (h : CarryLaw f g) (hm : f.ctx[g].flight = some m) :
    f.gantryOn g = true := by
  obtain ⟨_, _, _, off⟩ := h
  by_contra hoff
  rw [(off (Bool.eq_false_iff.mpr hoff)).2.1] at hm
  cases hm

/-- What a change of gantry g's context, with any change beside the floor, leaves. -/
theorem ctx_of_floor_modCtx {f f' : Feed} {g : Gantry} {k : Ctx → Ctx} (h : f'.floor = (f.modCtx g k).floor) :
    f'.cfg = f.cfg ∧ f'.ctx[g] = k f.ctx[g] ∧ f'.ctx[other g] = f.ctx[other g] := by
  obtain ⟨_, hcfg, _, hctx⟩ := Floor.mk.inj h
  rw [hctx]
  exact ⟨hcfg, modCtx_own g k f, modCtx_apart (other_ne g) k f⟩

/-- The law of an enabled gantry with no PICK in flight asks that the order of its carry is in the list. -/
theorem carryLaw_of_carry {f f' : Feed} {g : Gantry} {k : Ctx → Ctx} (hfloor : f'.floor = (f.modCtx g k).floor)
    (hon : f.gantryOn g = true) (hlisted : ∀ tag, orderTag (k f.ctx[g]).carry = some tag → Listed f' tag)
    (hpick : ∀ m, (k f.ctx[g]).flight = some m → m.kind ≠ .pick)
    (hidle : (k f.ctx[g]).state = .idle → (k f.ctx[g]).flight = none) : CarryLaw f' g := by
  obtain ⟨hcfg, hown, _⟩ := ctx_of_floor_modCtx hfloor
  unfold CarryLaw
  rw [hown]
  refine ⟨hlisted, fun m hm hkind => absurd hkind (hpick m hm), hidle, fun hoff => ?_⟩
  exact absurd (hon.symm.trans ((gantryOn_congr hcfg g).symm.trans hoff)) (by decide)

/-- An empty-handed context needs no order in the list. -/
theorem listed_of_empty {c : Ctx} (hcarry : c.carry = none) (f : Feed) (tag : Nat) (h : orderTag c.carry = some tag) :
    Listed f tag := by
  rw [hcarry] at h
  cases h

/-- The law of an enabled gantry with no move in flight. -/
theorem carryLaw_of_rest {f f' : Feed} {g : Gantry} {k : Ctx → Ctx} (hfloor : f'.floor = (f.modCtx g k).floor)
    (hon : f.gantryOn g = true) (hlisted : ∀ tag, orderTag (k f.ctx[g]).carry = some tag → Listed f' tag)
    (hflight : (k f.ctx[g]).flight = none) : CarryLaw f' g :=
  carryLaw_of_carry hfloor hon hlisted (notPicking_of_rest hflight) fun _ => hflight

/-- A context carries the same panel and the same move, in the same state or halted. -/
structure Ctx.SameLoad (c c' : Ctx) : Prop where
  carry : c'.carry = c.carry
  flight : c'.flight = c.flight
  state : c'.state = c.state ∨ c'.state = .halted

theorem Ctx.SameLoad.of_eq {c c' : Ctx} (h : c' = c) : Ctx.SameLoad c c' := h ▸ ⟨rfl, rfl, .inl rfl⟩

/-- The law of a gantry whose load is the same, as long as the orders it counts for stay in the list. -/
theorem carryLaw_of_sameLoad {f f' : Feed} {g : Gantry} (hon : f'.gantryOn g = f.gantryOn g)
    (hload : Ctx.SameLoad f.ctx[g] f'.ctx[g])
    (hlisted : ∀ tag, counts f.ctx[g] tag = true → Listed f tag → Listed f' tag) (h : CarryLaw f g) :
    CarryLaw f' g := by
  obtain ⟨hcarry, hflight, hstate⟩ := hload
  obtain ⟨listed, picks, idle, off⟩ := h
  have before {x : CtxState} (hx : f'.ctx[g].state = x) (hne : x ≠ .halted) : f.ctx[g].state = x :=
    hstate.elim (fun hs => hs.symm.trans hx) fun hs => absurd (hx.symm.trans hs) hne
  refine ⟨fun tag htag => ?_, fun m hm hkind => ?_, fun hidle => ?_, fun hoff => ?_⟩
  · rw [hcarry] at htag
    exact hlisted tag (counts_of_orderTag htag) (listed tag htag)
  · rw [hflight] at hm
    obtain ⟨hnone, hmoving⟩ := picks m hm hkind
    exact ⟨hcarry.trans hnone, fun hs =>
      hlisted m.tag (counts_of_flight hm hkind) (hmoving (before hs (by decide)))⟩
  · exact hflight.trans (idle (before hidle (by decide)))
  · obtain ⟨hhalted, hnoFlight, hnoCarry⟩ := off (hon ▸ hoff)
    exact ⟨hstate.elim (fun hs => hs.trans hhalted) id, hflight.trans hnoFlight, hcarry.trans hnoCarry⟩

/-! ### The list without an entry (R83, R87) -/

theorem mem_of_removed {f f' : Feed} {x : Nat} (h : f'.tallies = f.tallies.filter (·.tag != x)) (e : Tally) :
    e ∈ f'.tallies ↔ e ∈ f.tallies ∧ e.tag ≠ x := by
  rw [h, List.mem_filter, bne_iff_ne]

theorem tags_of_removed {f f' : Feed} {x : Nat} (h : f'.tallies = f.tallies.filter (·.tag != x)) :
    (f'.tallies.map Tally.tag).Sublist (f.tallies.map Tally.tag) := by
  rw [h]
  exact List.filter_sublist.map Tally.tag

theorem listed_of_removed {f f' : Feed} {x tag : Nat} (h : f'.tallies = f.tallies.filter (·.tag != x))
    (hne : tag ≠ x) (hl : Listed f tag) : Listed f' tag := by
  obtain ⟨e, he, rfl⟩ := (listed_iff ..).mp hl
  exact (listed_iff ..).mpr ⟨e, (mem_of_removed h e).mpr ⟨he, hne⟩, rfl⟩

/-! ### Changes that keep the laws -/

/-- The laws are kept where each entry left stood in the list, its out count has changed by what the gantries count for
it, and each gantry keeps its law. -/
theorem orderInv_of_balance {f f' : Feed} (h : OrderInv f)
    (tags : (f'.tallies.map Tally.tag).Sublist (f.tallies.map Tally.tag))
    (balance : ∀ e' ∈ f'.tallies, ∃ e ∈ f.tallies, e.tag = e'.tag ∧ e'.out ≤ e'.remaining ∧
      e'.out + countFor f e'.tag = e.out + countFor f' e'.tag)
    (carries : ∀ g, CarryLaw f' g) : OrderInv f' := by
  obtain ⟨hlist, hpanel, _⟩ := (orderInv_iff f).mp h
  refine (orderInv_iff f').mpr ⟨listLaw_of_sublist tags hlist, (panelLaw_iff f').mpr fun e' he' => ?_, carries⟩
  obtain ⟨e, he, htag, hle, hbal⟩ := balance e' he'
  obtain ⟨_, hout⟩ := (panelLaw_iff f).mp hpanel e he
  rw [htag] at hout
  exact ⟨hle, by omega⟩

/-- A change that the laws do not see. -/
theorem orderInv_of_quiet {f f' : Feed} (htallies : f'.tallies = f.tallies) (hcfg : f'.cfg = f.cfg)
    (hload : ∀ g : Gantry, Ctx.SameLoad f.ctx[g] f'.ctx[g]) (h : OrderInv f) : OrderInv f' := by
  obtain ⟨_, hpanel, hcarries⟩ := (orderInv_iff f).mp h
  have hcount (tag : Nat) : countFor f' tag = countFor f tag := by
    rw [countFor_eq 0, countFor_eq 0, counts_congr (hload 0).carry (hload 0).flight,
      counts_congr (hload (other 0)).carry (hload (other 0)).flight]
  refine orderInv_of_balance h (by rw [htallies]) (fun e he => ?_) fun g => ?_
  · rw [htallies] at he
    exact ⟨e, he, rfl, ((panelLaw_iff f).mp hpanel e he).1, by rw [hcount]⟩
  · exact carryLaw_of_sameLoad (gantryOn_congr hcfg _) (hload g) (fun _ _ => listed_of_tallies htallies)
      (hcarries g)

/-- A change of gantry g's context with the list, where the other gantry's orders stay in the list. -/
theorem orderInv_of_own {f f' : Feed} {g : Gantry} {k : Ctx → Ctx} (hfloor : f'.floor = (f.modCtx g k).floor)
    (h : OrderInv f) (tags : (f'.tallies.map Tally.tag).Sublist (f.tallies.map Tally.tag))
    (kept : ∀ tag, counts f.ctx[other g] tag = true → Listed f tag → Listed f' tag)
    (balance : ∀ e' ∈ f'.tallies, ∃ e ∈ f.tallies, e.tag = e'.tag ∧ e'.out ≤ e'.remaining ∧
      e'.out + bitNat (counts f.ctx[g] e'.tag) = e.out + bitNat (counts (k f.ctx[g]) e'.tag))
    (own : CarryLaw f' g) : OrderInv f' := by
  obtain ⟨hcfg, hown, hother⟩ := ctx_of_floor_modCtx hfloor
  refine orderInv_of_balance h tags (fun e' he' => ?_) fun g' => ?_
  · obtain ⟨e, he, htag, hle, hbal⟩ := balance e' he'
    refine ⟨e, he, htag, hle, ?_⟩
    rw [countFor_eq g f, countFor_eq g f', hown, hother]
    omega
  · rcases eq_or_other g g' with rfl | rfl
    · exact own
    · exact carryLaw_of_sameLoad (gantryOn_congr hcfg _) (.of_eq hother) kept (carryLaw_of_orderInv h _)

/-- A change of gantry g's context that counts for the same orders of the list, which stands. -/
theorem orderInv_of_same {f f' : Feed} {g : Gantry} {k : Ctx → Ctx} (hfloor : f'.floor = (f.modCtx g k).floor)
    (h : OrderInv f) (htallies : f'.tallies = f.tallies)
    (hcounts : ∀ tag, Listed f tag → counts (k f.ctx[g]) tag = counts f.ctx[g] tag) (own : CarryLaw f' g) :
    OrderInv f' := by
  obtain ⟨_, hpanel, _⟩ := (orderInv_iff f).mp h
  refine orderInv_of_own hfloor h (by rw [htallies]) (fun _ _ => listed_of_tallies htallies) (fun e he => ?_) own
  rw [htallies] at he
  exact ⟨e, he, rfl, ((panelLaw_iff f).mp hpanel e he).1, by rw [hcounts e.tag ((listed_iff ..).mpr ⟨e, he, rfl⟩)]⟩

theorem atTag_tag {t : Tally → Tally} (htag : ∀ e, (t e).tag = e.tag) (x : Nat) (e : Tally) :
    (e.atTag x t).tag = e.tag := by
  unfold Tally.atTag
  split <;> [exact htag e; rfl]

theorem listed_of_entry {f f' : Feed} {x : Nat} {t : Tally → Tally} (htag : ∀ e, (t e).tag = e.tag)
    (htallies : f'.tallies = f.tallies.map (Tally.atTag x t)) {tag : Nat} (hl : Listed f tag) : Listed f' tag := by
  obtain ⟨e, he, rfl⟩ := (listed_iff ..).mp hl
  rw [listed_iff, htallies]
  exact ⟨_, List.mem_map_of_mem he, atTag_tag htag x e⟩

/-- A change of gantry g's context with a change of one entry, whose out count changes by what the context counts for
it. -/
theorem orderInv_of_entry {f f' : Feed} {g : Gantry} {k : Ctx → Ctx} (hfloor : f'.floor = (f.modCtx g k).floor)
    (h : OrderInv f) {x : Nat} {t : Tally → Tally} (htallies : f'.tallies = f.tallies.map (Tally.atTag x t))
    (htag : ∀ e, (t e).tag = e.tag) (hcounts : ∀ tag, tag ≠ x → counts (k f.ctx[g]) tag = counts f.ctx[g] tag)
    (balance : ∀ e ∈ f.tallies, e.tag = x → (t e).out ≤ (t e).remaining ∧
      (t e).out + bitNat (counts f.ctx[g] x) = e.out + bitNat (counts (k f.ctx[g]) x)) (own : CarryLaw f' g) :
    OrderInv f' := by
  obtain ⟨_, hpanel, _⟩ := (orderInv_iff f).mp h
  refine orderInv_of_own hfloor h ?tags (fun _ _ => listed_of_entry htag htallies) (fun e' he' => ?balance) own
  case tags =>
    rw [htallies, List.map_map, show Tally.tag ∘ Tally.atTag x t = Tally.tag from funext (atTag_tag htag x)]
  case balance =>
    rw [htallies] at he'
    obtain ⟨e, he, rfl⟩ := List.mem_map.mp he'
    refine ⟨e, he, (atTag_tag htag x e).symm, ?_⟩
    rw [atTag_tag htag]
    by_cases hx : e.tag = x
    · rw [Tally.atTag, if_pos hx, hx]
      exact balance e he hx
    · rw [Tally.atTag, if_neg hx, hcounts e.tag hx]
      exact ⟨((panelLaw_iff f).mp hpanel e he).1, rfl⟩

/-- A panel that a gantry counted for leaves it, and the out count of its order is lowered. -/
theorem orderInv_of_release {f f' : Feed} {g : Gantry} {k : Ctx → Ctx} (hfloor : f'.floor = (f.modCtx g k).floor)
    (h : OrderInv f) {x : Nat} (htallies : f'.tallies = (f.lowerOut x).tallies)
    (hcounted : ∀ tag, counts f.ctx[g] tag = decide (x = tag)) (hnone : ∀ tag, counts (k f.ctx[g]) tag = false)
    (own : CarryLaw f' g) : OrderInv f' := by
  obtain ⟨_, hpanel, _⟩ := (orderInv_iff f).mp h
  have one : counts f.ctx[g] x = true := (hcounted x).trans (decide_eq_true rfl)
  refine orderInv_of_entry hfloor h (htallies.trans (lowerOut_tallies x f)) (fun _ => rfl) (fun tag hne => ?_)
    (fun e he hx => ?_) own
  · rw [hnone, hcounted, decide_eq_false hne.symm]
  · obtain ⟨hle, hout⟩ := (panelLaw_iff f).mp hpanel e he
    rw [hx, countFor_eq g, one] at hout
    rw [one, hnone]
    simp only [Tally.lower, bitNat, if_true, Bool.false_eq_true, if_false] at *
    omega

end Sys2Proof.Machine
end

section
/-! SUPPORT. What each shared operation on carries and in-flight moves does to the order list, and that every completion
keeps the panel-count law (R54 to R71, R92). -/

namespace Sys2Proof.Machine

/-! ### Operations that the laws do not see -/

theorem orderInv_of_floor {f f' : Feed} (hfloor : f'.floor = f.floor) (horders : f'.orders = f.orders)
    (h : OrderInv f) : OrderInv f' := by
  obtain ⟨_, hcfg, _, hctx⟩ := Floor.mk.inj hfloor
  exact orderInv_of_quiet (tallies_of_orders horders) hcfg (fun g => .of_eq (by rw [hctx])) h

theorem orderInv_raise {f : Feed} (c : EventCode) (n d : Nat) (h : OrderInv f) : OrderInv (f.raise c n d) :=
  orderInv_of_floor (Feed.raise_floor ..) (Feed.raise_orders ..) h

/-- A change of the table clears no more than a flag of the wait record (R47). -/
theorem setRail_sameLoad (t : Rail) (f : Feed) (g : Gantry) : Ctx.SameLoad f.ctx[g] (f.setRail t).ctx[g] := by
  rw [setRail_own]
  split
  · exact ⟨rfl, rfl, .inl rfl⟩
  · exact .of_eq rfl

theorem orderInv_setRail (t : Rail) {f : Feed} (h : OrderInv f) : OrderInv (f.setRail t) :=
  orderInv_of_quiet (f := f) rfl rfl (setRail_sameLoad t f) h

/-- A change of a context that leaves its load. -/
theorem orderInv_modCtx {g : Gantry} {k : Ctx → Ctx} {f : Feed} (hload : Ctx.SameLoad f.ctx[g] (k f.ctx[g]))
    (h : OrderInv f) : OrderInv (f.modCtx g k) := by
  refine orderInv_of_quiet (f := f) rfl rfl (fun g' => ?_) h
  rcases eq_or_other g g' with rfl | rfl
  · rwa [modCtx_own]
  · exact .of_eq (modCtx_apart (other_ne g) k f)

/-- A halt leaves the load of the context (R121). -/
theorem orderInv_haltCtx (g : Gantry) (r : HaltReason) (b : Option BadMove) {f : Feed} (h : OrderInv f) :
    OrderInv (f.haltCtx g r b) :=
  orderInv_raise _ _ _ (orderInv_setRail _ (orderInv_modCtx ⟨rfl, rfl, .inr rfl⟩ h))

theorem orderInv_furtherFault (g : Gantry) (r : HaltReason) {f : Feed} (h : OrderInv f) :
    OrderInv (f.furtherFault g r) :=
  orderInv_raise _ _ _ (orderInv_modCtx ⟨rfl, rfl, .inl rfl⟩ h)

theorem orderInv_fault (g : Gantry) (r : HaltReason) {f : Feed} (h : OrderInv f) : OrderInv (f.fault g r) := by
  unfold Feed.fault
  split
  · exact orderInv_furtherFault g r h
  · exact orderInv_haltCtx g r none h

/-! ### A carry lost or given up -/

theorem modCtx_floor_of {f e : Feed} (h : e.floor = f.floor) (g : Gantry) (k : Ctx → Ctx) :
    (e.modCtx g k).floor = (f.modCtx g k).floor := by
  obtain ⟨hpart, hcfg, hrail, hctx⟩ := Floor.mk.inj h
  simp only [Feed.floor, Feed.modCtx_part, Feed.modCtx_cfg, Feed.modCtx_rail, Feed.modCtx_ctx, hpart, hcfg, hrail, hctx]

/-- The order of a carry loses the panel, whether it becomes FAULTED or not. -/
theorem onOrder_lostPanel_tallies (carry : Option Carry) (f : Feed) :
    (f.onOrder carry Feed.lostPanel).tallies = (f.onOrder carry Feed.lowerOut).tallies := by
  unfold Feed.onOrder
  split <;> [exact lostPanel_tallies ..; rfl]

/-- What an operation on one entry leaves of the list depends on the list alone. -/
theorem lowerOut_tallies_congr {f f' : Feed} (h : f'.orders = f.orders) (tag : Nat) :
    (f'.lowerOut tag).tallies = (f.lowerOut tag).tallies := by
  rw [lowerOut_tallies, lowerOut_tallies, tallies_of_orders h]

theorem onOrder_tallies_congr {f f' : Feed} (h : f'.orders = f.orders) (carry : Option Carry) :
    (f'.onOrder carry Feed.lowerOut).tallies = (f.onOrder carry Feed.lowerOut).tallies := by
  unfold Feed.onOrder
  split <;> [exact lowerOut_tallies_congr h _; exact tallies_of_orders h]

/-- A context left empty-handed, with the order of its carry one panel fewer. -/
theorem orderInv_of_emptied {f f' : Feed} {g : Gantry} {k : Ctx → Ctx} (hfloor : f'.floor = (f.modCtx g k).floor)
    (h : OrderInv f) (hon : f.gantryOn g = true) (hpick : ∀ m, f.ctx[g].flight = some m → m.kind ≠ .pick)
    (htallies : f'.tallies = (f.onOrder f.ctx[g].carry Feed.lowerOut).tallies) (hcarry : (k f.ctx[g]).carry = none)
    (hflight : ∀ m, (k f.ctx[g]).flight = some m → f.ctx[g].flight = some m)
    (hidle : (k f.ctx[g]).state = .idle → (k f.ctx[g]).flight = none) : OrderInv f' := by
  have hpick' (m : Flight) (hm : (k f.ctx[g]).flight = some m) : m.kind ≠ .pick := hpick m (hflight m hm)
  have hnone := counts_empty hcarry hpick'
  have own : CarryLaw f' g := carryLaw_of_carry hfloor hon (listed_of_empty hcarry f') hpick' hidle
  cases htag : orderTag f.ctx[g].carry with
  | none =>
    rw [onOrder_none htag] at htallies
    refine orderInv_of_same hfloor h htallies (fun tag _ => ?_) own
    rw [hnone, counts_carry hpick, htag]
    rfl
  | some x =>
    rw [onOrder_some htag] at htallies
    exact orderInv_of_release hfloor h htallies (counts_order htag hpick) hnone own

/-- A carry lost, from the grip or in a settlement (R70, R125). -/
theorem orderInv_loseCarry {g : Gantry} {f : Feed} (hcarry : f.ctx[g].carry.isSome = true) (h : OrderInv f) :
    OrderInv ((f.setCarry g none).onOrder f.ctx[g].carry Feed.lostPanel) := by
  have hlaw := carryLaw_of_orderInv h g
  refine orderInv_of_emptied (k := fun c => { c with carry := none }) (Feed.onOrder_floor Feed.lostPanel_floor ..) h
    (on_of_carry hlaw hcarry) (notPicking_of_carry hlaw hcarry) ?_ rfl (fun _ hm => hm) (carryLaw_idle hlaw)
  exact (onOrder_lostPanel_tallies ..).trans (onOrder_tallies_congr (f := f) (Feed.setCarry_orders g none f) _)

theorem orderInv_drop {g : Gantry} {f : Feed} (hcarry : f.ctx[g].carry.isSome = true) (h : OrderInv f) :
    OrderInv (f.drop g) := orderInv_fault g .drop (orderInv_loseCarry hcarry h)

/-- An UNKNOWN carry is of no order (R71). -/
theorem orderInv_findCarry {g : Gantry} {f : Feed} (hon : f.gantryOn g = true) (hcarry : f.ctx[g].carry = none)
    (hpick : ∀ m, f.ctx[g].flight = some m → m.kind ≠ .pick) (h : OrderInv f) :
    OrderInv (f.setCarry g (some (unknownCarry f.cfg))) := by
  refine orderInv_of_same (f := f) (g := g) (k := fun c => { c with carry := some (unknownCarry f.cfg) }) rfl h rfl
    (fun tag _ => ?_) (carryLaw_of_carry rfl hon (fun tag htag => by cases htag) hpick
      (carryLaw_idle (carryLaw_of_orderInv h g)))
  rw [counts_empty hcarry hpick]
  exact counts_carry (c := { f.ctx[g] with carry := some (unknownCarry f.cfg) }) hpick tag

theorem orderInv_unexpectedGrip {g : Gantry} {f : Feed} (hon : f.gantryOn g = true) (hcarry : f.ctx[g].carry = none)
    (hpick : ∀ m, f.ctx[g].flight = some m → m.kind ≠ .pick) (h : OrderInv f) : OrderInv (f.unexpectedGrip g) :=
  orderInv_fault g .unexpectedGrip (orderInv_findCarry hon hcarry hpick h)

/-- The grip check of an enabled gantry with no move in flight (R63). -/
theorem orderInv_gripCheck {g : Gantry} {f : Feed} (hon : f.gantryOn g = true) (hflight : f.ctx[g].flight = none)
    (h : OrderInv f) : OrderInv (f.gripCheck g) := by
  unfold Feed.gripCheck
  split_ifs with hcarry
  · exact h
  · exact orderInv_drop hcarry h
  · exact orderInv_unexpectedGrip hon (Option.not_isSome_iff_eq_none.mp hcarry)
      (notPicking_of_rest hflight) h
  · exact h

/-! ### A move in flight ends -/

/-- The end of a move that leaves the list and the carry (R59 to R61, R66). -/
theorem orderInv_of_kept {f f' : Feed} {g : Gantry} {m : Flight} {k : Ctx → Ctx}
    (hfloor : f'.floor = (f.modCtx g k).floor) (h : OrderInv f) (hm : f.ctx[g].flight = some m) (hkind : m.kind ≠ .pick)
    (htallies : f'.tallies = f.tallies) (hcarry : (k f.ctx[g]).carry = f.ctx[g].carry)
    (hflight : (k f.ctx[g]).flight = none) : OrderInv f' := by
  obtain ⟨listed, _⟩ := carryLaw_of_orderInv h g
  have hon := on_of_flight (carryLaw_of_orderInv h g) hm
  refine orderInv_of_same hfloor h htallies (fun tag _ => ?_) (carryLaw_of_rest hfloor hon (fun tag htag => ?_) hflight)
  · rw [counts_carry (notPicking_of_kind hm hkind), counts_carry (notPicking_of_rest hflight), hcarry]
  · rw [hcarry] at htag
    exact listed_of_tallies htallies (listed tag htag)

/-- The end of a PICK that leaves the panel in the grip: it is the order's, where the order is in the list (R58, R66). -/
theorem orderInv_of_picked {f f' : Feed} {g : Gantry} {m : Flight} {k : Ctx → Ctx}
    (hfloor : f'.floor = (f.modCtx g k).floor) (h : OrderInv f) (hm : f.ctx[g].flight = some m) (hkind : m.kind = .pick)
    (htallies : f'.tallies = f.tallies)
    (hcarry : ∀ tag, orderTag (k f.ctx[g]).carry = some tag ↔ m.tag = tag ∧ Listed f tag)
    (hflight : (k f.ctx[g]).flight = none) : OrderInv f' := by
  obtain ⟨_, picks, _⟩ := carryLaw_of_orderInv h g
  have hon := on_of_flight (carryLaw_of_orderInv h g) hm
  refine orderInv_of_same hfloor h htallies (fun tag hl => ?_) (carryLaw_of_rest hfloor hon (fun tag htag => ?_) hflight)
  · rw [counts_pick hm hkind (picks m hm hkind).1, counts_carry (notPicking_of_rest hflight)]
    exact decide_eq_decide.mpr ((hcarry tag).trans (and_iff_left hl))
  · exact listed_of_tallies htallies ((hcarry tag).mp htag).2

/-- The end of a PICK with no panel in the grip (R58, R66). -/
theorem orderInv_of_unpicked {f f' : Feed} {g : Gantry} {m : Flight} {k : Ctx → Ctx}
    (hfloor : f'.floor = (f.modCtx g k).floor) (h : OrderInv f) (hm : f.ctx[g].flight = some m) (hkind : m.kind = .pick)
    (htallies : f'.tallies = (f.lowerOut m.tag).tallies) (hcarry : (k f.ctx[g]).carry = none)
    (hflight : (k f.ctx[g]).flight = none) : OrderInv f' := by
  obtain ⟨_, picks, _⟩ := carryLaw_of_orderInv h g
  have hon := on_of_flight (carryLaw_of_orderInv h g) hm
  exact orderInv_of_release hfloor h htallies (counts_pick hm hkind (picks m hm hkind).1)
    (counts_empty hcarry (notPicking_of_rest hflight))
    (carryLaw_of_rest hfloor hon (listed_of_empty hcarry f') hflight)

/-- The end of a PLACE or REJECT that leaves the context empty-handed, the panel lost or rejected (R60, R66). -/
theorem orderInv_of_gone {f f' : Feed} {g : Gantry} {m : Flight} {k : Ctx → Ctx}
    (hfloor : f'.floor = (f.modCtx g k).floor) (h : OrderInv f) (hm : f.ctx[g].flight = some m) (hkind : m.kind ≠ .pick)
    (htallies : f'.tallies = (f.onOrder f.ctx[g].carry Feed.lowerOut).tallies) (hcarry : (k f.ctx[g]).carry = none)
    (hflight : (k f.ctx[g]).flight = none) : OrderInv f' :=
  orderInv_of_emptied hfloor h (on_of_flight (carryLaw_of_orderInv h g) hm)
    (notPicking_of_kind hm hkind) htallies hcarry
    (fun m' hm' => by rw [hflight] at hm'; cases hm') fun _ => hflight

/-! ### A panel placed (R59, R86) -/

/-- The removal of an entry that gantry g counts for, and the other does not. -/
theorem orderInv_of_removed {f f' : Feed} {g : Gantry} {k : Ctx → Ctx} (hfloor : f'.floor = (f.modCtx g k).floor)
    (h : OrderInv f) {x : Nat} (htallies : f'.tallies = f.tallies.filter (·.tag != x))
    (hcounted : ∀ tag, counts f.ctx[g] tag = decide (x = tag)) (hnone : ∀ tag, counts (k f.ctx[g]) tag = false)
    (hother : counts f.ctx[other g] x = false) (own : CarryLaw f' g) : OrderInv f' := by
  obtain ⟨_, hpanel, _⟩ := (orderInv_iff f).mp h
  refine orderInv_of_own hfloor h (tags_of_removed htallies) (fun tag hcount => ?kept) (fun e he => ?balance) own
  case kept =>
    refine listed_of_removed htallies fun hx => ?_
    rw [hx, hother] at hcount
    cases hcount
  case balance =>
    obtain ⟨he, hne⟩ := (mem_of_removed htallies e).mp he
    refine ⟨e, he, rfl, ((panelLaw_iff f).mp hpanel e he).1, ?_⟩
    rw [hcounted, hnone, decide_eq_false hne.symm]

/-- A tally of a panel placed: one fewer out and one fewer to come (R59). -/
def Tally.place (e : Tally) : Tally := { e with out := e.out - 1, remaining := e.remaining - 1 }

/-- The end of a PLACE that leaves the panel at the station (R59): its order has one panel fewer, and leaves the list with
its last, which no other gantry can then count for (R86). -/
theorem orderInv_of_placed {f f' : Feed} {g : Gantry} {m : Flight} {k : Ctx → Ctx}
    (hfloor : f'.floor = (f.modCtx g k).floor) (h : OrderInv f) (hm : f.ctx[g].flight = some m) (hkind : m.kind ≠ .pick)
    (htallies : f'.tallies = (f.onOrder f.ctx[g].carry Feed.placedPanel).tallies) (hcarry : (k f.ctx[g]).carry = none)
    (hflight : (k f.ctx[g]).flight = none) : OrderInv f' := by
  cases htag : orderTag f.ctx[g].carry with
  | none =>
    refine orderInv_of_gone hfloor h hm hkind (htallies.trans ?_) hcarry hflight
    rw [onOrder_none htag, onOrder_none htag]
  | some x =>
    rw [onOrder_some htag] at htallies
    obtain ⟨hlist, hpanel, _⟩ := (orderInv_iff f).mp h
    obtain ⟨listed, _⟩ := carryLaw_of_orderInv h g
    obtain ⟨o, hfind⟩ := find_of_listed (listed x htag)
    have hcounted := counts_order htag (notPicking_of_kind hm hkind)
    have hnone := counts_empty hcarry (notPicking_of_rest hflight)
    have one : counts f.ctx[g] x = true := (hcounted x).trans (decide_eq_true rfl)
    have hon := on_of_flight (carryLaw_of_orderInv h g) hm
    have own : CarryLaw f' g := carryLaw_of_rest hfloor hon (listed_of_empty hcarry f') hflight
    by_cases hmore : 1 < o.remaining
    case pos =>
      rw [placedPanel_more hfind hmore, modOrder_tallies Tally.place fun _ => rfl] at htallies
      refine orderInv_of_entry hfloor h htallies (fun _ => rfl) (fun tag hne => ?_) (fun e he hx => ?_) own
      · rw [hnone, hcounted, decide_eq_false hne.symm]
      · obtain ⟨hle, hout⟩ := (panelLaw_iff f).mp hpanel e he
        rw [hx, countFor_eq g, one] at hout
        rw [one, hnone]
        simp only [Tally.place, bitNat, if_true, Bool.false_eq_true, if_false] at *
        omega
    case neg =>
      obtain ⟨hle, hout⟩ := hpanel o (List.mem_of_find?_eq_some hfind)
      rw [findOrder_tag hfind, countFor_eq g, one] at hout
      cases hother : counts f.ctx[other g] x with
      | true =>
        rw [hother] at hout
        simp only [bitNat, if_true] at hout
        omega
      | false =>
        have hlast : o.remaining = 1 := by
          simp only [bitNat, if_true] at hout
          omega
        refine orderInv_of_removed hfloor h ?_ hcounted hnone hother own
        rw [htallies, placedPanel_last hfind hlast, tallies_of_orders (Feed.count_orders ..),
          tallies_of_orders (Feed.raise_orders ..)]
        exact removeOrder_tallies x f.orders

end Sys2Proof.Machine
end

section
/-! SUPPORT. Every completion keeps the panel-count law (R52 to R67, R92). -/

namespace Sys2Proof.Machine

/-! ### The unsettled close (R66, R67) -/

/-- The panel that an unsettled close finds in the grip of a PICK is the order's where the order is in the list (R66). -/
theorem closeCarry_picked {m : Flight} {vac : Bool} (hkind : m.kind = .pick) (hvac : vac = true) (f : Feed)
    (carry : Option Carry) (tag : Nat) :
    orderTag (closeCarry m vac f carry) = some tag ↔ m.tag = tag ∧ Listed f tag := by
  have hclose : closeCarry m vac f carry =
      some ⟨m.tag, m.len.getD 0, if (f.findOrder m.tag).isSome then .order else .orphan⟩ := by
    simp only [closeCarry, hkind, hvac, if_true]
  rw [hclose, listed_iff_find]
  cases hfind : (f.findOrder m.tag).isSome
  · refine iff_of_false (by simp [orderTag]) fun ⟨htag, hl⟩ => ?_
    rw [htag, hl] at hfind
    cases hfind
  · simp only [orderTag, if_true, Option.some.injEq]
    exact ⟨fun htag => ⟨htag, htag ▸ hfind⟩, fun h => h.1⟩

theorem orderInv_closeFlight {g : Gantry} {m : Flight} {f : Feed} (hm : f.ctx[g].flight = some m) (h : OrderInv f) :
    OrderInv (f.closeFlight g m) := by
  have hfloor : (f.closeFlight g m).floor = (f.modCtx g fun c =>
      { c with carry := closeCarry m (f.vacOf g) f f.ctx[g].carry, flight := none }).floor :=
    modCtx_floor_of (by simp) g _
  have htallies : (f.closeFlight g m).tallies =
      (closeOrder m (f.vacOf g) f.ctx[g].carry (closeStation m f)).tallies := rfl
  have hstation : (closeStation m f).orders = f.orders := closeStation_orders m f
  cases hvac : f.vacOf g with
  | true =>
    rw [hvac] at hfloor
    rw [hvac, closeOrder_gripped rfl, tallies_of_orders hstation] at htallies
    cases hkind : m.kind with
    | pick =>
      exact orderInv_of_picked hfloor h hm hkind htallies (closeCarry_picked hkind rfl f _) rfl
    | travel =>
      exact orderInv_of_kept hfloor h hm (by simp [hkind]) htallies (closeCarry_travel hkind ..) rfl
    | place =>
      exact orderInv_of_kept hfloor h hm (by simp [hkind]) htallies (closeCarry_gripped (.inl hkind) rfl ..) rfl
    | reject =>
      exact orderInv_of_kept hfloor h hm (by simp [hkind]) htallies (closeCarry_gripped (.inr hkind) rfl ..) rfl
  | false =>
    rw [hvac] at hfloor htallies
    cases hkind : m.kind with
    | travel =>
      rw [closeOrder_travel hkind, tallies_of_orders hstation] at htallies
      exact orderInv_of_kept hfloor h hm (by simp [hkind]) htallies (closeCarry_travel hkind ..) rfl
    | pick =>
      rw [closeOrder_pick hkind rfl, lowerOut_tallies_congr hstation] at htallies
      exact orderInv_of_unpicked hfloor h hm hkind htallies (closeCarry_released hkind (by decide) rfl ..) rfl
    | place =>
      rw [closeOrder_place hkind rfl, onOrder_lostPanel_tallies, onOrder_tallies_congr hstation] at htallies
      exact orderInv_of_gone hfloor h hm (by simp [hkind]) htallies (closeCarry_released hkind (by decide) rfl ..) rfl
    | reject =>
      rw [closeOrder_reject hkind rfl, onOrder_tallies_congr hstation] at htallies
      exact orderInv_of_gone hfloor h hm (by simp [hkind]) htallies (closeCarry_released hkind (by decide) rfl ..) rfl

theorem orderInv_endFaulted {g : Gantry} {m : Flight} {f : Feed} (r : CompletionRec) (why : HaltReason)
    (hm : f.ctx[g].flight = some m) (h : OrderInv f) : OrderInv (f.endFaulted g m r why) := by
  have hpos : OrderInv (f.modCtx g fun c => { c with pos := reachedPos f r.reached }) :=
    orderInv_modCtx ⟨rfl, rfl, .inl rfl⟩ h
  refine orderInv_modCtx ⟨rfl, rfl, .inl rfl⟩ (orderInv_closeFlight ?_ (orderInv_haltCtx g why none hpos))
  rw [(haltCtx_own ..).flight, modCtx_own]
  exact hm

theorem orderInv_endLate {g : Gantry} {m : Flight} {f : Feed} (r : CompletionRec) (hm : f.ctx[g].flight = some m)
    (h : OrderInv f) : OrderInv (f.endLate g m r) := by
  have hpos : OrderInv (f.modCtx g fun c => { c with pos := reachedPos f r.reached }) :=
    orderInv_modCtx ⟨rfl, rfl, .inl rfl⟩ h
  refine orderInv_modCtx ⟨rfl, rfl, .inl rfl⟩ (orderInv_closeFlight ?_ hpos)
  rw [modCtx_own]
  exact hm

/-! ### Clean endings (R57 to R61) -/

/-- A PLACE that keeps its panel leaves the list (R59). -/
theorem settlePlace_kept_orders {e : Ending} {vac : Bool} (h : e = .short ∨ vac = true) (g : Gantry) (m : Flight)
    (carry : Option Carry) (f : Feed) : (settlePlace g m e vac carry f).orders = f.orders := by
  have returned (f : Feed) : (atStation m Feed.returned f).orders = f.orders := atStation_orders Feed.returned_orders m f
  rcases h with hend | rfl
  · rw [settlePlace, if_neg (not_reached_of_short hend), returned]
  · unfold settlePlace
    split
    · rw [if_pos rfl, returned]
      exact atStation_orders (fun _ _ => Feed.raise_orders ..) m f
    · exact returned f

theorem settlePlace_placed_orders {e : Ending} {vac : Bool} (hend : e = .reached) (hvac : vac = false) (g : Gantry)
    (m : Flight) (carry : Option Carry) (f : Feed) :
    (settlePlace g m e vac carry f).orders = (f.onOrder carry Feed.placedPanel).orders := by
  rw [settlePlace, if_pos hend, if_neg (Bool.eq_false_iff.mp hvac)]
  exact atStation_orders Feed.landed_orders m _

/-- A REJECT that keeps its panel leaves the list (R60). -/
theorem settleReject_kept_orders {e : Ending} {vac : Bool} (h : e = .short ∨ vac = true) (g : Gantry)
    (carry : Option Carry) (f : Feed) : (settleReject g e vac carry f).orders = f.orders := by
  rcases h with hend | rfl
  · rw [settleReject_short hend]
  · unfold settleReject
    split <;> [exact Feed.raise_orders ..; rfl]

/-- The order of a MOVING PICK is in the list, and its panel becomes the order's carry (R58). -/
theorem settledCarry_gripped {m : Flight} {e : Ending} {vac : Bool} {f : Feed} (hkind : m.kind = .pick)
    (hend : e = .reached) (hvac : vac = true) (hl : Listed f m.tag) (carry : Option Carry) (tag : Nat) :
    orderTag (settledCarry m e vac carry) = some tag ↔ m.tag = tag ∧ Listed f tag := by
  simp only [settledCarry, hkind, hend, hvac, and_self, if_true, orderTag, Option.some.injEq]
  exact ⟨fun htag => ⟨htag, htag ▸ hl⟩, fun h => h.1⟩

/-- A settled move, before the grip check (R57 to R61). -/
theorem orderInv_settled {g : Gantry} {m : Flight} {f : Feed} {r : CompletionRec} (vac : Bool)
    (hm : f.ctx[g].flight = some m) (hmoving : f.ctx[g].state = .moving)
    (hend : r.ending = .reached ∨ r.ending = .short) (h : OrderInv f) :
    OrderInv ((settleEffects g m r.ending vac f.ctx[g].carry f).modCtx g
      (·.settled r (settledCarry m r.ending vac f.ctx[g].carry))) := by
  have hfloor := modCtx_floor_of (settleEffects_floor g m r.ending vac f.ctx[g].carry f) g
    (·.settled r (settledCarry m r.ending vac f.ctx[g].carry))
  have tallies {f' : Feed} (he : settleEffects g m r.ending vac f.ctx[g].carry f = f') :
      ((settleEffects g m r.ending vac f.ctx[g].carry f).modCtx g
        (·.settled r (settledCarry m r.ending vac f.ctx[g].carry))).tallies = f'.tallies := by
    rw [← he]
    rfl
  have ending : (r.ending = .reached ∧ vac = false) ∨ (r.ending = .short ∨ vac = true) := by
    rcases hend with hend | hend
    · cases vac
      · exact .inl ⟨hend, rfl⟩
      · exact .inr (.inr rfl)
    · exact .inr (.inl hend)
  cases hkind : m.kind with
  | travel =>
    exact orderInv_of_kept hfloor h hm (by simp [hkind]) (tallies (settleEffects_travel hkind ..))
      (settledCarry_travel hkind ..) rfl
  | pick =>
    obtain ⟨_, picks, _⟩ := carryLaw_of_orderInv h g
    have effects := tallies (settleEffects_pick hkind ..)
    rcases hend with hend | hend
    · cases hvac : vac with
      | true =>
        subst hvac
        rw [settlePick_gripped hend rfl] at effects
        exact orderInv_of_picked hfloor h hm hkind effects
          (settledCarry_gripped hkind hend rfl ((picks m hm hkind).2 hmoving) _) rfl
      | false =>
        subst hvac
        rw [settlePick_mispick hend rfl, mispicked_tallies] at effects
        exact orderInv_of_unpicked hfloor h hm hkind effects (settledCarry_notPicked hkind (.inr rfl) _) rfl
    · rw [settlePick_short hend] at effects
      exact orderInv_of_unpicked hfloor h hm hkind effects (settledCarry_notPicked hkind (.inl hend) _) rfl
  | place =>
    have effects := tallies (settleEffects_place hkind ..)
    rcases ending with ⟨hend, hvac⟩ | hkept
    · rw [tallies_of_orders (settlePlace_placed_orders hend hvac ..)] at effects
      exact orderInv_of_placed hfloor h hm (by simp [hkind]) effects (settledCarry_released (.inl hkind) hend hvac _) rfl
    · rw [tallies_of_orders (settlePlace_kept_orders hkept ..)] at effects
      exact orderInv_of_kept hfloor h hm (by simp [hkind]) effects (settledCarry_kept (.inl hkind) hkept _) rfl
  | reject =>
    have effects := tallies (settleEffects_reject hkind ..)
    rcases ending with ⟨hend, hvac⟩ | hkept
    · rw [settleReject_released hend hvac, tallies_of_orders (Feed.count_orders ..)] at effects
      exact orderInv_of_gone hfloor h hm (by simp [hkind]) effects (settledCarry_released (.inr hkind) hend hvac _) rfl
    · rw [tallies_of_orders (settleReject_kept_orders hkept ..)] at effects
      exact orderInv_of_kept hfloor h hm (by simp [hkind]) effects (settledCarry_kept (.inr hkind) hkept _) rfl

theorem orderInv_settle {g : Gantry} {m : Flight} {f : Feed} {r : CompletionRec} (t : Rail)
    (hm : f.ctx[g].flight = some m) (hmoving : f.ctx[g].state = .moving)
    (hend : r.ending = .reached ∨ r.ending = .short) (h : OrderInv f) : OrderInv (f.settle g m r t) := by
  have hload := setRail_alike t f g
  have hcarry : (f.setRail t).ctx[g].carry = f.ctx[g].carry := (setRail_sameLoad t f g).carry
  have settled := orderInv_settled (f.vacOf g) (hload.flight.trans hm) (hload.state.trans hmoving) hend
    (orderInv_setRail t h)
  rw [hcarry] at settled
  have hon := on_of_flight (carryLaw_of_orderInv h g) hm
  have hcfg : (settleEffects g m r.ending (f.vacOf g) f.ctx[g].carry (f.setRail t)).gantryOn g = f.gantryOn g :=
    gantryOn_congr (Floor.mk.inj (settleEffects_floor g m r.ending _ _ (f.setRail t))).2.1 g
  exact orderInv_gripCheck (hcfg.trans hon) (by rw [modCtx_own]; rfl) settled

theorem orderInv_endClean {g : Gantry} {m : Flight} {f : Feed} {r : CompletionRec} (hm : f.ctx[g].flight = some m)
    (hmoving : f.ctx[g].state = .moving) (hend : r.ending = .reached ∨ r.ending = .short) (h : OrderInv f) :
    OrderInv (f.endClean g m r) := by
  unfold Feed.endClean
  split
  · exact orderInv_settle _ hm hmoving hend h
  · exact orderInv_endFaulted r .span hm h

theorem flight_of_matched {r : CompletionRec} {c : Ctx} {m : Flight} (h : matchedFlight r c = some m) :
    c.flight = some m := ((matchedFlight_eq_some_iff ..).mp h).1

/-- A completion taken (R54). -/
theorem orderInv_complete (g : Gantry) (r : CompletionRec) {f : Feed} (h : OrderInv f) : OrderInv (complete g r f).1 := by
  have mismatch := orderInv_haltCtx g .mismatch none h
  unfold complete
  split
  case h_1 hmoving =>
    unfold completeMoving
    split
    case h_1 hmatch hend => exact orderInv_endClean (flight_of_matched hmatch) hmoving (.inl hend) h
    case h_2 hmatch hend => exact orderInv_endClean (flight_of_matched hmatch) hmoving (.inr hend) h
    case h_3 hmatch _ => exact orderInv_endFaulted r .driveFault (flight_of_matched hmatch) h
    case h_4 => exact mismatch
    case h_5 => exact mismatch
  case h_2 =>
    unfold completeIdle
    split
    · exact h
    · exact mismatch
  case h_3 =>
    unfold completeHalted
    split
    case h_1 hmatch => exact orderInv_endLate r (flight_of_matched hmatch) h
    case h_2 => exact orderInv_furtherFault g .mismatch h

end Sys2Proof.Machine
end

section
/-! SUPPORT. A judged read and an admission keep the panel-count law (R34 to R43, R78 to R81, R92). -/

namespace Sys2Proof.Machine

/-! ### Judged reads -/

theorem orderInv_setMemRun (g : Gantry) (n : Nat) {f : Feed} (h : OrderInv f) : OrderInv (f.setMemRun g n) :=
  orderInv_modCtx ⟨rfl, rfl, .inl rfl⟩ h

/-- A PICK that passes R37 and R39 is of an order in the list with a panel left, by a gantry without a carry. -/
theorem pick_of_passed {g : Gantry} {r : MoveRec} {f : Feed} (hgood : badMove g .pick r f = none)
    (hready : notYet g .pick r f = none) :
    f.ctx[g].carry = none ∧ ∃ o, f.findOrder r.tag = some o ∧ o.out ≠ o.remaining := by
  unfold badMove at hgood
  split at hgood
  case isTrue => cases hgood
  case isFalse =>
    simp only [badPick] at hgood
    split_ifs at hgood with hcarry
    refine ⟨Option.not_isSome_iff_eq_none.mp hcarry, ?_⟩
    cases hfind : f.findOrder r.tag with
    | none =>
      rw [hfind] at hgood
      cases hgood
    | some o =>
      refine ⟨o, rfl, fun hout => ?_⟩
      simp only [notYet, hfind, if_pos hout] at hready
      cases hready

/-- An accepted move other than a PICK leaves the list (R42, R43). -/
theorem acceptOrder_orders {k : MoveKind} (hk : k ≠ .pick) (g : Gantry) (order : Option Order) (f : Feed) :
    (f.acceptOrder g k order).orders = f.orders := by
  cases k with
  | pick => exact absurd rfl hk
  | place => cases order <;> rfl
  | travel | reject => rfl

/-- A tally with the out count raised by one (R42). -/
def Tally.raised (e : Tally) : Tally := { e with out := e.out + 1 }

/-- The accepted PICK of a panel that is left raises the out count of its order (R42). -/
theorem orderInv_acceptPick {g : Gantry} {f f' : Feed} {m : Flight} {o : Order}
    (hfloor : f'.floor = (f.modCtx g (·.accepted m)).floor) (h : OrderInv f) (hidle : f.ctx[g].state = .idle)
    (hcarry : f.ctx[g].carry = none) (hfind : f.findOrder m.tag = some o) (hleft : o.out ≠ o.remaining)
    (hkind : m.kind = .pick) (htallies : f'.tallies = f.tallies.map (Tally.atTag m.tag Tally.raised)) :
    OrderInv f' := by
  obtain ⟨hlist, hpanel, _⟩ := (orderInv_iff f).mp h
  obtain ⟨hcfg, hown, _⟩ := ctx_of_floor_modCtx hfloor
  have hon := on_of_state (carryLaw_of_orderInv h g) (hidle.trans_ne (by decide))
  have hbefore := counts_empty hcarry (notPicking_of_rest (carryLaw_idle (carryLaw_of_orderInv h g) hidle))
  have hafter := counts_pick (c := f.ctx[g].accepted m) rfl hkind hcarry
  have own : CarryLaw f' g := by
    unfold CarryLaw
    rw [hown]
    refine ⟨listed_of_empty hcarry f', fun m' hm' _ => ⟨hcarry, fun _ => ?_⟩, fun hs => ?_, fun hoff => ?_⟩
    · obtain rfl : m = m' := Option.some.inj hm'
      exact listed_of_entry (t := Tally.raised) (fun _ => rfl) htallies ((listed_iff_find ..).mpr (by rw [hfind]; rfl))
    · cases hs
    · exact absurd (hon.symm.trans ((gantryOn_congr hcfg g).symm.trans hoff)) (by decide)
  refine orderInv_of_entry hfloor h htallies (fun _ => rfl) (fun tag hne => ?_) (fun e he htag => ?_) own
  · rw [hbefore, hafter, decide_eq_false hne.symm]
  · have ho := List.mem_of_find?_eq_some hfind
    obtain rfl := tally_of_tag hlist ho he (htag.trans (findOrder_tag hfind).symm)
    obtain ⟨hle, _⟩ := hpanel o ho
    refine ⟨lt_of_le_of_ne hle hleft, ?_⟩
    rw [hbefore, hafter, decide_eq_true rfl]
    rfl

/-- An accepted move of another kind leaves the panel counts (R41, R43). -/
theorem orderInv_acceptOther {g : Gantry} {f f' : Feed} {m : Flight} (hfloor : f'.floor = (f.modCtx g (·.accepted m)).floor)
    (h : OrderInv f) (hidle : f.ctx[g].state = .idle) (hkind : m.kind ≠ .pick) (htallies : f'.tallies = f.tallies) :
    OrderInv f' := by
  obtain ⟨listed, _⟩ := carryLaw_of_orderInv h g
  have hon := on_of_state (carryLaw_of_orderInv h g) (hidle.trans_ne (by decide))
  have hrest := notPicking_of_rest (carryLaw_idle (carryLaw_of_orderInv h g) hidle)
  have hpick := notPicking_of_kind (c := f.ctx[g].accepted m) rfl hkind
  refine orderInv_of_same hfloor h htallies (fun tag _ => ?_) (carryLaw_of_carry hfloor hon
    (fun tag htag => listed_of_tallies htallies (listed tag htag)) hpick fun hs => ?_)
  · rw [counts_carry hrest]
    exact counts_carry hpick tag
  · cases hs

/-- A move that passes R37 and R39 and is granted its cells (R41 to R43). -/
theorem orderInv_accept {g : Gantry} {k : MoveKind} {r : MoveRec} {f : Feed} (run : Span) (t : Rail)
    (hgood : badMove g k r f = none) (hready : notYet g k r f = none) (hidle : f.ctx[g].state = .idle)
    (h : OrderInv f) : OrderInv (f.accept g k r run t) := by
  have hload := setRail_sameLoad t f g
  have hidle' := (setRail_alike t f g).state.trans hidle
  have hfloor : (f.accept g k r run t).floor =
      ((f.setRail t).modCtx g (·.accepted (newFlight g k r run f))).floor :=
    Feed.acceptOrder_floor g k (moveOrder g k r f) _
  by_cases hk : k = .pick
  case pos =>
    subst hk
    obtain ⟨hcarry, o, hfind, hleft⟩ := pick_of_passed hgood hready
    refine orderInv_acceptPick hfloor (orderInv_setRail t h) hidle' (hload.carry.trans hcarry) hfind hleft rfl ?_
    have horder : moveOrder g .pick r f = some o := hfind
    have htag : (newFlight g .pick r run f).tag = o.tag := (findOrder_tag hfind).symm
    unfold Feed.accept
    rw [horder, htag]
    exact modOrder_tallies Tally.raised (fun _ => rfl) _
  case neg =>
    exact orderInv_acceptOther hfloor (orderInv_setRail t h) hidle' hk (tallies_of_orders (acceptOrder_orders hk g _ _))

/-- A RAIL wait changes no more than the table, the wait record and events (R45 to R48, R129). -/
theorem orderInv_railWait (g : Gantry) (i : WaitId) (kind : Blocking) {f : Feed} (h : OrderInv f) :
    OrderInv (f.railWait g i kind) := by
  have count : OrderInv (f.countWait g i) := by
    unfold Feed.countWait
    split
    · exact orderInv_modCtx ⟨rfl, rfl, .inl rfl⟩ h
    · exact orderInv_modCtx ⟨rfl, rfl, .inl rfl⟩ (orderInv_setRail _ h)
  have starve {f : Feed} (h : OrderInv f) : OrderInv (f.starve g kind) := by
    have reserved := orderInv_setRail (reserve f.rail g) h
    unfold Feed.starve
    split
    · simp only
      split
      · exact orderInv_raise _ _ _ reserved
      · exact reserved
    · exact h
  exact orderInv_of_floor (Feed.mutualTest_floor ..) (Feed.mutualTest_orders ..) (starve count)

theorem orderInv_judgeIdle {g : Gantry} {f : Feed} (r : MoveRec) (hidle : f.ctx[g].state = .idle) (h : OrderInv f) :
    OrderInv (judgeIdle g r f).1 := by
  unfold judgeIdle
  split
  · exact orderInv_haltCtx _ _ _ h
  · split
    · exact orderInv_haltCtx _ _ _ h
    case _ hgood =>
      split
      · exact h
      case _ hready =>
        unfold claimMove
        split
        · exact orderInv_accept _ _ hgood hready hidle h
        · exact orderInv_railWait _ _ _ h

theorem orderInv_judgeGood (g : Gantry) (r : MoveRec) {f : Feed} (h : OrderInv f) : OrderInv (judgeGood g r f).1 := by
  unfold judgeGood
  split_ifs with hhalted _ _ hmoving
  iterate 5 exact h
  have hidle : f.ctx[g].state = .idle := by
    cases hs : f.ctx[g].state with
    | idle => rfl
    | moving => exact absurd hs hmoving
    | halted => exact absurd hs hhalted
  exact orderInv_judgeIdle r hidle h

/-- The judging of a read (R29). -/
theorem orderInv_judge (g : Gantry) (data : Option (List Word)) {f : Feed} (h : OrderInv f) :
    OrderInv (judge g data f).1 := by
  unfold judge
  split
  · unfold judgeBad
    split
    · exact orderInv_fault g .memory (orderInv_setMemRun g 3 h)
    · exact orderInv_setMemRun g _ h
  · exact orderInv_judgeGood g _ (orderInv_setMemRun g 0 h)

/-! ### Admissions (R78 to R81) -/

/-- An admitted request is of a tag that no entry and no PICK in flight has, to a list with room (R78, R80). -/
theorem of_admitted {r : OrderRec} {f : Feed} (h : admission r f = .admitted) :
    r.tag ≠ 0 ∧ f.findOrder r.tag = none ∧ (∀ g : Gantry, pickOf f.ctx[g] r.tag = false) ∧
      f.orders.length < Config.listCapacity := by
  unfold admission at h
  split at h
  case h_1 => cases h
  case h_2 hrefusal =>
    split at h
    case isTrue => cases h
    case isFalse hroom =>
      have hdup : ¬(r.tag = 0 ∨ (f.findOrder r.tag).isSome ∨ pickOf f.ctx[0] r.tag = true ∨
          pickOf f.ctx[1] r.tag = true) := fun hdup => by
        rw [orderRefusal, if_pos hdup] at hrefusal
        cases hrefusal
      simp only [not_or, Bool.not_eq_true, Option.isSome_eq_false_iff, Option.isNone_iff_eq_none] at hdup
      obtain ⟨hzero, hnew, h0, h1⟩ := hdup
      exact ⟨hzero, hnew, Fin.forall_fin_two.mpr ⟨h0, h1⟩, Nat.not_le.mp hroom⟩

/-- An admitted order is counted by no gantry, and has no panel out (R81). -/
theorem orderInv_enlist {r : OrderRec} {f : Feed} (hadmitted : admission r f = .admitted) (h : OrderInv f) :
    OrderInv (f.enlist r) := by
  obtain ⟨hzero, hnew, hpick, hroom⟩ := of_admitted hadmitted
  obtain ⟨⟨_, hne, hnodup⟩, hpanel, hcarries⟩ := (orderInv_iff f).mp h
  have hunlisted : ¬Listed f r.tag := fun hl => by
    rw [listed_iff_find, hnew] at hl
    cases hl
  have hcount (g : Gantry) : counts f.ctx[g] r.tag = false := by
    obtain ⟨listed, _⟩ := hcarries g
    rw [counts, hpick g, decide_eq_false fun htag => hunlisted (listed _ htag)]
    rfl
  have mem (o : Order) : o ∈ (f.enlist r).orders ↔ o ∈ f.orders ∨ o = newOrder r := by simp [Feed.enlist]
  refine (orderInv_iff _).mpr ⟨⟨?length, fun o ho => ?tagged, ?nodup⟩, fun o ho => ?panels, fun g => ?carries⟩
  case length => simpa [Feed.enlist] using hroom
  case tagged =>
    rcases (mem o).mp ho with ho | rfl
    · exact hne o ho
    · exact hzero
  case nodup =>
    have hfresh : r.tag ∉ f.orders.map (·.tag) := fun hmem => hunlisted (List.mem_map.mp hmem)
    have htags : (f.enlist r).orders.map (·.tag) = f.orders.map (·.tag) ++ [r.tag] := by simp [Feed.enlist, newOrder]
    rw [htags, ← List.concat_eq_append]
    exact (List.nodup_concat ..).mpr ⟨hfresh, hnodup⟩
  case panels =>
    rcases (mem o).mp ho with ho | rfl
    · exact hpanel o ho
    · refine ⟨Nat.zero_le _, ?_⟩
      have hnone : countFor f r.tag = 0 := by rw [countFor_eq 0, hcount, hcount]; rfl
      exact hnone.symm
  case carries =>
    refine carryLaw_of_sameLoad (f := f) rfl (.of_eq rfl) (fun tag _ ⟨o, ho, htag⟩ => ?_) (hcarries g)
    exact ⟨o, (mem o).mpr (.inl ho), htag⟩

end Sys2Proof.Machine
end
section
/-! SUPPORT. The control commands on contexts and orders keep the panel-count law (R88 to R92, R125 to R133). -/

namespace Sys2Proof.Machine

/-! ### CLEAR_HALT (R125 to R127) -/

theorem orderInv_settleClose (g : Gantry) {f : Feed} (h : OrderInv f) : OrderInv (f.settleClose g) := by
  unfold Feed.settleClose
  split
  case h_1 hm => exact orderInv_closeFlight hm h
  case h_2 => exact h

theorem orderInv_settlePos (g : Gantry) (b : Option Nat) {f : Feed} (h : OrderInv f) : OrderInv (f.settlePos g b) := by
  unfold Feed.settlePos
  split
  · exact orderInv_modCtx ⟨rfl, rfl, .inl rfl⟩ h
  · exact h

/-- The grip step of the settlement of an enabled gantry, its move closed (R125). -/
theorem orderInv_settleGrip {g : Gantry} {f : Feed} (hon : f.gantryOn g = true) (hflight : f.ctx[g].flight = none)
    (h : OrderInv f) : OrderInv (f.settleGrip g) := by
  unfold Feed.settleGrip
  split_ifs with hcarry
  · exact h
  · exact orderInv_loseCarry hcarry h
  · exact orderInv_findCarry hon (Option.not_isSome_iff_eq_none.mp hcarry) (notPicking_of_rest hflight) h
  · exact h

theorem orderInv_settleHalt {g : Gantry} {f : Feed} (b : Option Nat) (hon : f.gantryOn g = true) (h : OrderInv f) :
    OrderInv (f.settleHalt g b) := by
  have fallen : OrderInv (f.settleFall g) :=
    orderInv_of_floor (Feed.settleFall_floor g f) (Feed.settleFall_orders g f) h
  have aside := (Aside.of_floor g (Feed.settleFall_floor g f)).trans ((aside_settleClose g _).trans
    (aside_settlePos g b _))
  refine orderInv_settleGrip ((gantryOn_congr aside.cfg g).trans hon) ?_
    (orderInv_settlePos g b (orderInv_settleClose g fallen))
  obtain ⟨_, hclose⟩ := settleClose_own g (f.settleFall g)
  rw [settlePos_own, hclose]

/-- A cleared halt leaves the load of an enabled gantry, which has no move in flight (R127). -/
theorem orderInv_clearDone {g : Gantry} {f : Feed} (t : Rail) (hon : f.gantryOn g = true)
    (hflight : f.ctx[g].flight = none) (h : OrderInv f) : OrderInv (f.clearDone g t) := by
  have held := orderInv_setRail t h
  obtain ⟨listed, _⟩ := carryLaw_of_orderInv held g
  have hrest : (f.setRail t).ctx[g].flight = none := (setRail_sameLoad t f g).flight.trans hflight
  exact orderInv_raise _ _ _ (orderInv_of_same (f := f.setRail t) (g := g) (k := Ctx.cleared) rfl held rfl
    (fun _ _ => rfl) (carryLaw_of_rest rfl hon listed hrest))

theorem orderInv_clearHalt (a : Nat) (b : Option Nat) {f : Feed} (h : OrderInv f) : OrderInv (clearHalt a b f).1 := by
  unfold clearHalt
  split
  case isFalse => exact h
  case isTrue ha =>
    have hon : f.gantryOn ⟨a, ha.1⟩ = true := decide_eq_true ha.2
    generalize (⟨a, ha.1⟩ : Gantry) = g at hon
    unfold clearHaltOf
    split
    case h_1 => exact h
    case h_2 =>
      obtain ⟨k, own⟩ := settleHalt_own g b f
      have settled := orderInv_settleHalt b hon h
      have hon' := (gantryOn_congr (aside_settleHalt g b f).cfg g).trans hon
      unfold Feed.reseatHalt
      split
      · exact orderInv_clearDone _ hon' (by rw [own]) settled
      · exact settled
      · exact settled

/-! ### Carries orphaned by CANCEL_ORDER (R88, R89) -/

/-- A context whose panel is no order's any more. -/
def Ctx.disowned (c : Ctx) : Ctx := { c with carry := c.carry.map fun k => { k with kind := .orphan } }

theorem disowned_orderTag (c : Ctx) : orderTag c.disowned.carry = none := by
  cases hcarry : c.carry <;> simp [Ctx.disowned, hcarry, orderTag]

theorem disowned_carry {c : Ctx} (h : c.carry = none) : c.disowned.carry = none := by simp [Ctx.disowned, h]

theorem orphan_floor (g : Gantry) (why : OrphanWhy) (f : Feed) :
    (f.orphan g why).floor = (f.modCtx g Ctx.disowned).floor := Feed.raise_floor ..

@[simp] theorem Feed.orphan_orders (g : Gantry) (why : OrphanWhy) (f : Feed) : (f.orphan g why).orders = f.orders :=
  Feed.raise_orders ..

/-- A context after the order of a tag was cancelled (R89). -/
def Ctx.cancelled (a : Nat) (c : Ctx) : Ctx := if orderTag c.carry = some a then c.disowned else c

theorem modCtx_floor_same {g : Gantry} {k : Ctx → Ctx} {f : Feed} (h : k f.ctx[g] = f.ctx[g]) :
    (f.modCtx g k).floor = f.floor := by
  have hset : f.ctx.set g f.ctx[g] = f.ctx := Vector.set_getElem_self ..
  simp only [Feed.floor, Feed.modCtx, h, hset]

theorem orphanIf_floor (g : Gantry) (a : Nat) (f : Feed) :
    (f.orphanIf g a).floor = (f.modCtx g (Ctx.cancelled a)).floor := by
  unfold Feed.orphanIf
  split
  case isTrue htag =>
    rw [orphan_floor]
    simp only [Feed.floor, Feed.modCtx, Ctx.cancelled, if_pos htag]
  case isFalse htag => exact (modCtx_floor_same (if_neg htag)).symm

@[simp] theorem Feed.orphanIf_orders (g : Gantry) (a : Nat) (f : Feed) : (f.orphanIf g a).orders = f.orders := by
  unfold Feed.orphanIf; split <;> simp

/-- A change of both contexts, gantry 0's first. -/
theorem ctx_of_both {f f1 f2 : Feed} {k : Ctx → Ctx} (h0 : f1.floor = (f.modCtx 0 k).floor)
    (h1 : f2.floor = (f1.modCtx 1 k).floor) : f2.cfg = f.cfg ∧ ∀ g : Gantry, f2.ctx[g] = k f.ctx[g] := by
  obtain ⟨hcfg0, hown0, hother0⟩ := ctx_of_floor_modCtx h0
  obtain ⟨hcfg1, hown1, hother1⟩ := ctx_of_floor_modCtx h1
  exact ⟨hcfg1.trans hcfg0, Fin.forall_fin_two.mpr ⟨hother1.trans hown0, hown1.trans (congrArg k hother0)⟩⟩

theorem cancelled_flight (a : Nat) (c : Ctx) : (c.cancelled a).flight = c.flight := by
  unfold Ctx.cancelled; split <;> rfl

theorem cancelled_state (a : Nat) (c : Ctx) : (c.cancelled a).state = c.state := by
  unfold Ctx.cancelled; split <;> rfl

theorem cancelled_carry (a : Nat) {c : Ctx} (h : c.carry = none) : (c.cancelled a).carry = none := by
  unfold Ctx.cancelled
  split <;> [exact disowned_carry h; exact h]

/-- The carries of the other orders stand (R89). -/
theorem cancelled_orderTag (a tag : Nat) (c : Ctx) :
    orderTag (c.cancelled a).carry = some tag ↔ orderTag c.carry = some tag ∧ tag ≠ a := by
  unfold Ctx.cancelled
  split
  case isTrue htag =>
    rw [disowned_orderTag, htag]
    exact iff_of_false (by simp) fun ⟨h, hne⟩ => hne (Option.some.inj h).symm
  case isFalse htag => exact (and_iff_left_of_imp fun h (hta : tag = a) => htag (hta ▸ h)).symm

theorem cancelled_counts {a tag : Nat} (hne : tag ≠ a) (c : Ctx) : counts (c.cancelled a) tag = counts c tag := by
  have hcarry : decide (orderTag (c.cancelled a).carry = some tag) = decide (orderTag c.carry = some tag) :=
    decide_eq_decide.mpr ((cancelled_orderTag a tag c).trans (and_iff_left hne))
  rw [counts, counts, hcarry, pickOf, pickOf, cancelled_flight]

theorem flightConcerns_iff (c : Ctx) (tag : Nat) :
    flightConcerns c tag = true ↔ ∃ m, c.flight = some m ∧ m.kind ≠ .travel ∧ m.tag = tag := by
  unfold flightConcerns
  cases c.flight <;> simp

/-- An order that no move in flight concerns leaves the list, its carries orphaned (R88, R89). -/
theorem orderInv_cancelled {f f' : Feed} {a : Nat} (hcfg : f'.cfg = f.cfg)
    (hctx : ∀ g : Gantry, f'.ctx[g] = f.ctx[g].cancelled a) (horders : f'.orders = removeOrder a f.orders)
    (hflight : ∀ g : Gantry, flightConcerns f.ctx[g] a = false) (h : OrderInv f) : OrderInv f' := by
  obtain ⟨_, hpanel, hcarries⟩ := (orderInv_iff f).mp h
  have htallies : f'.tallies = f.tallies.filter (·.tag != a) := by
    rw [Feed.tallies, horders]
    exact removeOrder_tallies a f.orders
  refine orderInv_of_balance h (tags_of_removed htallies) (fun e he => ?balance) fun g => ?carries
  case balance =>
    obtain ⟨he, hne⟩ := (mem_of_removed htallies e).mp he
    refine ⟨e, he, rfl, ((panelLaw_iff f).mp hpanel e he).1, ?_⟩
    rw [countFor_eq 0, countFor_eq 0, hctx, hctx, cancelled_counts hne, cancelled_counts hne]
  case carries =>
    obtain ⟨listed, picks, idle, off⟩ := hcarries g
    unfold CarryLaw
    rw [hctx, cancelled_flight, cancelled_state, gantryOn_congr hcfg]
    refine ⟨fun tag htag => ?_, fun m hm hkind => ?_, idle, fun hoff => ?_⟩
    · obtain ⟨htag, hne⟩ := (cancelled_orderTag ..).mp htag
      exact listed_of_removed htallies hne (listed tag htag)
    · obtain ⟨hnone, hmoving⟩ := picks m hm hkind
      have hne : m.tag ≠ a := fun hma => by
        have hconcerns := (flightConcerns_iff f.ctx[g] a).mpr ⟨m, hm, by rw [hkind]; decide, hma⟩
        rw [hflight] at hconcerns
        cases hconcerns
      exact ⟨cancelled_carry a hnone, fun hs => listed_of_removed htallies hne (hmoving hs)⟩
    · obtain ⟨hhalted, hnoFlight, hnoCarry⟩ := off hoff
      exact ⟨hhalted, hnoFlight, cancelled_carry a hnoCarry⟩

theorem orderInv_cancelOrder (a : Nat) {f : Feed} (h : OrderInv f) : OrderInv (cancelOrder a f).1 := by
  unfold cancelOrder
  split_ifs with hlisted hbusy
  · exact h
  · exact h
  · simp only [not_or, Bool.not_eq_true] at hbusy
    obtain ⟨hcfg, hctx⟩ := ctx_of_both (orphanIf_floor 0 a f) (orphanIf_floor 1 a _)
    exact orderInv_cancelled hcfg hctx (by simp) (Fin.forall_fin_two.mpr hbusy) h

/-! ### RESET_FEED (R91, R131 to R133) -/

theorem Ctx.SameLoad.trans {c c' c'' : Ctx} (h : Ctx.SameLoad c c') (h' : Ctx.SameLoad c' c'') : Ctx.SameLoad c c'' :=
  ⟨h'.carry.trans h.carry, h'.flight.trans h.flight,
    h'.state.elim (fun hs => h.state.imp hs.trans hs.trans) .inr⟩

theorem Ctx.SameLoad.halted {c c' : Ctx} (h : Ctx.SameLoad c c') (hs : c.state = .halted) : c'.state = .halted :=
  h.state.elim (fun hsame => hsame.trans hs) id

theorem haltCtx_sameLoad (g : Gantry) (r : HaltReason) (b : Option BadMove) (f : Feed) (g' : Gantry) :
    Ctx.SameLoad f.ctx[g'] (f.haltCtx g r b).ctx[g'] := by
  have held := setRail_sameLoad (unreserve f.rail g) (f.modCtx g (·.halted r b f.time)) g'
  rw [Feed.haltCtx, Feed.raise_ctx]
  refine Ctx.SameLoad.trans ?_ held
  rcases eq_or_other g g' with rfl | rfl
  · rw [modCtx_own]
    exact ⟨rfl, rfl, .inr rfl⟩
  · exact .of_eq (modCtx_apart (other_ne g) _ f)

theorem resetCtx_sameLoad (g : Gantry) (f : Feed) (g' : Gantry) : Ctx.SameLoad f.ctx[g'] (f.resetCtx g).ctx[g'] := by
  unfold Feed.resetCtx
  split
  · exact haltCtx_sameLoad g _ _ f g'
  · exact .of_eq rfl

@[simp] theorem Feed.resetCtx_cfg (g : Gantry) (f : Feed) : (f.resetCtx g).cfg = f.cfg := by
  unfold Feed.resetCtx; split <;> simp

@[simp] theorem Feed.resetCtx_orders (g : Gantry) (f : Feed) : (f.resetCtx g).orders = f.orders := by
  unfold Feed.resetCtx; split <;> simp

theorem resetCtx_halted {g : Gantry} {f : Feed} (hon : f.gantryOn g = true) :
    (f.resetCtx g).ctx[g].state = .halted := by
  rw [Feed.resetCtx, if_pos hon]
  exact (haltCtx_own ..).state

/-- A context whose order left the list with all others (R91). -/
def Ctx.dispossessed (c : Ctx) : Ctx := if (orderTag c.carry).isSome then c.disowned else c

theorem dispossessed_flight (c : Ctx) : c.dispossessed.flight = c.flight := by
  unfold Ctx.dispossessed; split <;> rfl

theorem dispossessed_state (c : Ctx) : c.dispossessed.state = c.state := by
  unfold Ctx.dispossessed; split <;> rfl

theorem dispossessed_carry {c : Ctx} (h : c.carry = none) : c.dispossessed.carry = none := by
  unfold Ctx.dispossessed
  split <;> [exact disowned_carry h; exact h]

theorem dispossessed_orderTag (c : Ctx) : orderTag c.dispossessed.carry = none := by
  unfold Ctx.dispossessed
  split
  · exact disowned_orderTag c
  case isFalse htag => exact Option.not_isSome_iff_eq_none.mp htag

theorem orphanAny_floor (g : Gantry) (f : Feed) : (f.orphanAny g).floor = (f.modCtx g Ctx.dispossessed).floor := by
  unfold Feed.orphanAny
  split
  case isTrue htag =>
    rw [orphan_floor]
    simp only [Feed.floor, Feed.modCtx, Ctx.dispossessed, if_pos htag]
  case isFalse htag => exact (modCtx_floor_same (if_neg htag)).symm

@[simp] theorem Feed.orphanAny_orders (g : Gantry) (f : Feed) : (f.orphanAny g).orders = f.orders := by
  unfold Feed.orphanAny; split <;> simp

theorem dropOrders_ctx (f : Feed) : f.dropOrders.cfg = f.cfg ∧ ∀ g : Gantry, f.dropOrders.ctx[g] = f.ctx[g].dispossessed :=
  ctx_of_both (f := { f with orders := [] }) (orphanAny_floor 0 _) (orphanAny_floor 1 _)

@[simp] theorem Feed.dropOrders_orders (f : Feed) : f.dropOrders.orders = [] := by simp [Feed.dropOrders]

theorem resetFeed_cfg (f : Feed) : (resetFeed f).cfg = f.cfg := by
  rw [resetFeed, Feed.resetCtx_cfg, Feed.resetCtx_cfg, (Floor.mk.inj (Feed.resetStations_floor _)).2.1]
  exact (dropOrders_ctx f).1

theorem resetFeed_orders (f : Feed) : (resetFeed f).orders = [] := by simp [resetFeed]

/-- A RESET_FEED leaves of each context the move in flight, and the carry as no order's (R91, R132). -/
theorem resetFeed_sameLoad (f : Feed) (g : Gantry) : Ctx.SameLoad f.ctx[g].dispossessed (resetFeed f).ctx[g] := by
  have hstations : f.dropOrders.resetStations.ctx = f.dropOrders.ctx :=
    (Floor.mk.inj (Feed.resetStations_floor _)).2.2.2
  have h := (resetCtx_sameLoad 0 f.dropOrders.resetStations g).trans (resetCtx_sameLoad 1 _ g)
  rwa [hstations, (dropOrders_ctx f).2 g] at h

/-- A RESET_FEED halts each enabled context (R132). -/
theorem resetFeed_halted {f : Feed} {g : Gantry} (hon : f.gantryOn g = true) : (resetFeed f).ctx[g].state = .halted := by
  have hcfg : f.dropOrders.resetStations.cfg = f.cfg :=
    (Floor.mk.inj (Feed.resetStations_floor _)).2.1.trans (dropOrders_ctx f).1
  have hon' := (gantryOn_congr hcfg g).trans hon
  rcases gantry_cases g with rfl | rfl
  · exact (resetCtx_sameLoad 1 _ 0).halted (resetCtx_halted hon')
  · exact resetCtx_halted ((gantryOn_congr (Feed.resetCtx_cfg 0 _) 1).trans hon')

/-- With no entry in the list the laws ask only how the contexts stand. -/
theorem orderInv_of_noOrders {f : Feed} (horders : f.orders = []) (hcarries : ∀ g, CarryLaw f g) : OrderInv f := by
  refine (orderInv_iff f).mpr ⟨⟨?_, fun o ho => ?_, ?_⟩, fun o ho => ?_, hcarries⟩
  · rw [horders]
    exact Nat.zero_le _
  · rw [horders] at ho
    cases ho
  · rw [horders]
    exact List.nodup_nil
  · rw [horders] at ho
    cases ho

theorem orderInv_resetFeed {f : Feed} (h : OrderInv f) : OrderInv (resetFeed f) := by
  refine orderInv_of_noOrders (resetFeed_orders f) fun g => ?_
  obtain ⟨_, picks, _, off⟩ := carryLaw_of_orderInv h g
  obtain ⟨hcarry, hflight, _⟩ := resetFeed_sameLoad f g
  rw [dispossessed_flight] at hflight
  have hhalted : (resetFeed f).ctx[g].state = .halted := by
    cases hon : f.gantryOn g with
    | true => exact resetFeed_halted hon
    | false => exact (resetFeed_sameLoad f g).halted ((dispossessed_state _).trans (off hon).1)
  unfold CarryLaw
  rw [hcarry, hflight, hhalted, dispossessed_orderTag, gantryOn_congr (resetFeed_cfg f)]
  refine ⟨fun tag htag => ?_, fun m hm hkind => ?_, fun hs => ?_, fun hoff => ?_⟩
  · cases htag
  · exact ⟨dispossessed_carry (picks m hm hkind).1, fun hs => by cases hs⟩
  · cases hs
  · obtain ⟨_, hnoFlight, hnoCarry⟩ := off hoff
    exact ⟨rfl, hnoFlight, dispossessed_carry hnoCarry⟩

end Sys2Proof.Machine
end
section
/-! SUPPORT. Start-up, the sensors and so every step keep the panel-count law (R23, R24, R70, R92). -/

namespace Sys2Proof.Machine

/-! ### Start-up and sensors -/

/-- A context on entering RUN carries nothing (R23, R24). -/
theorem runCtx_carry (on kept : Bool) (railLen : Nat) (t : Time) (c : Ctx) :
    (runCtx on kept railLen t c).carry = none := by
  unfold runCtx
  split <;> rfl

theorem carryLaw_of_start {f : Feed} {g : Gantry} (hhalted : f.ctx[g].state = .halted)
    (hflight : f.ctx[g].flight = none) (hcarry : f.ctx[g].carry = none) : CarryLaw f g :=
  ⟨listed_of_empty hcarry f, fun m hm hkind => absurd hkind (notPicking_of_rest hflight m hm), fun _ => hflight,
    fun _ => ⟨hhalted, hflight, hcarry⟩⟩

theorem orderInv_enterRun (c : Settings) (vacRaw : Vector Bool 2) (presentRaw : Vector Bool 6) (f : Feed) :
    OrderInv (f.enterRun c vacRaw presentRaw) := by
  refine orderInv_of_noOrders (by simp [Feed.enterRun]) fun g => ?_
  have hstart := runCtx_halted (decide (g.val < c.gantryCount)) (decide (f.cause = .reload) && f.gantryOn g) c.railLen
    f.time f.ctx[g]
  rw [← enterRun_ctx c vacRaw presentRaw] at hstart
  exact carryLaw_of_start hstart.1 hstart.2 (by rw [enterRun_ctx, runCtx_carry])

theorem orderInv_enterLocked (code : LoadFault) (f : Feed) : OrderInv (f.enterLocked code) :=
  orderInv_of_noOrders rfl fun g => carryLaw_powerOn (enterLocked_ctx code f g)

theorem orderInv_powerOn (f : Feed) : OrderInv f.powerOn :=
  orderInv_of_noOrders rfl fun g => carryLaw_powerOn (t := f.time) (by simp [Feed.powerOn])

/-- A fall of VAC under no PICK, PLACE or REJECT is a DROP of what is carried (R70). -/
theorem orderInv_vacFallen (g : Gantry) {f : Feed} (h : OrderInv f) : OrderInv (f.vacFallen g) := by
  unfold Feed.vacFallen
  split_ifs with _ hcarry
  · exact h
  · exact orderInv_drop hcarry h
  · exact h

theorem orderInv_vacRisen {g : Gantry} {f : Feed} (hon : f.gantryOn g = true) (h : OrderInv f) :
    OrderInv (f.vacRisen g) := by
  unfold Feed.vacRisen
  split_ifs with hpick hcarry
  · exact h
  · exact h
  · exact orderInv_unexpectedGrip hon (Option.not_isSome_iff_eq_none.mp hcarry)
      (fun m hm hkind => hpick ((pickInFlight_iff _).mpr ⟨m, hm, hkind⟩)) h

/-! ### Every step -/

/-- Every act on the feed side keeps the panel-count law. -/
theorem orderInv_of_act {f f' : Feed} (act : FeedAct f f') (h : OrderInv f) : OrderInv f' := by
  have setVac (g : Gantry) (x : Filter) : OrderInv (f.setVac g x) := orderInv_of_floor (f := f) rfl rfl h
  cases act with
  | count | clearFlags | vacRaw | presentRaw | guardExpiry | tick => exact orderInv_of_floor (f := f) rfl rfl h
  | reload => exact orderInv_of_quiet (f := f) rfl rfl (fun _ => .of_eq rfl) h
  | raise => exact orderInv_raise _ _ _ h
  | report => exact orderInv_of_floor (report_floor ..) (report_orders ..) h
  | unblockStation => exact orderInv_of_floor (unblockStation_floor ..) (unblockStation_orders ..) h
  | ackEvents => exact orderInv_of_floor (ackEvents_floor ..) (ackEvents_orders ..) h
  | endNotice => exact orderInv_of_floor (Feed.endNotice_floor ..) (Feed.endNotice_orders ..) h
  | endEvent => exact orderInv_of_floor (Feed.endEvent_floor ..) (Feed.endEvent_orders ..) h
  | presentRise => exact orderInv_of_floor (f := f) (Feed.presentRisen_floor ..) (Feed.presentRisen_orders ..) h
  | presentFall => exact orderInv_of_floor (f := f) (Feed.presentFallen_floor ..) (Feed.presentFallen_orders ..) h
  | landingTimeout => exact orderInv_of_floor (Feed.faultStation_floor ..) (Feed.faultStation_orders ..) h
  | enlist r hadmitted => exact orderInv_enlist hadmitted h
  | complete g r => exact orderInv_complete g r h
  | judge g data => exact orderInv_judge g data h
  | clearHalt a b => exact orderInv_clearHalt a b h
  | cancelOrder a => exact orderInv_cancelOrder a h
  | resetFeed => exact orderInv_resetFeed h
  | moveTimeout g => exact orderInv_haltCtx g .moveTimeout none h
  | vacFall g => exact orderInv_vacFallen g (setVac g _)
  | vacRise g _ hon => exact orderInv_vacRisen (f := f.setVac g ⟨true, none⟩) hon (setVac g _)
  | powerOn => exact orderInv_powerOn f
  | enterLocked => exact orderInv_enterLocked ..
  | enterRun => exact orderInv_enterRun ..
  | reset => exact orderInv_of_noOrders rfl fun g => carryLaw_powerOn (reset_ctx g)

/-- Settles O58: a step is a chain of acts on the feed side, each of which keeps the law with what it rests on. -/
theorem everyStepKeepsThePanelLaw : Obligations.EveryStepKeepsThePanelLaw := fun _ _ =>
  kept_of_step OrderInv fun _ _ => orderInv_of_act

end Sys2Proof.Machine
end

section
/-! SUPPORT. Admission requests, and the control commands on the order list and the feed (R77 to R81, R88 to R91, R131 to
R133). -/

namespace Sys2Proof.Machine

/-! ### Admission requests (R77 to R81) -/

/-- An order record of the line computer is decided on (R77). -/
theorem exec_orderWrite {s : State} {tag : MasterTag} {addr : Addr} {ws : List PWord}
    (hown : OwnerRecord s tag addr ws .order) : exec (.orderWrite tag addr ws) s =
      done (s.unanswered.takeOrder (writeTxn tag addr ws) (dataOf ws)) :=
  congrArg done (State.present_owner hown)

theorem pickOf_eq (c : Ctx) (tag : Nat) :
    pickOf c tag = c.flight.any fun m => decide (m.kind = .pick ∧ m.tag = tag) := by
  unfold pickOf
  cases c.flight <;> rfl

/-- The table of R78, one row a test: whether it fails, and its reason. -/
def refusalTests (r : OrderRec) (f : Feed) : List (Bool × OrderRefusal) :=
  [ (decide (r.tag = 0) || (f.findOrder r.tag).isSome || pickOf f.ctx[0] r.tag || pickOf f.ctx[1] r.tag, .dupTag),
    (decide (f.cfg.stackCount ≤ r.stack), .badStack),
    (decide (f.cfg.stationCount ≤ r.station), .badStation),
    (decide (r.len < 200 ∨ f.cfg.cmax < r.len), .badLength),
    (decide (r.batch = 0 ∨ 8 < r.batch), .badBatch),
    (decide (r.dep ≠ 0) && (decide (r.dep = r.tag) || (f.findOrder r.dep).isNone), .badDependency) ]

theorem orderRefusal_eq (r : OrderRec) (f : Feed) : orderRefusal r f = firstFailing (refusalTests r f) := by
  unfold orderRefusal refusalTests
  simp only [firstFailing_cons, firstFailing_nil, Bool.or_eq_true, Bool.and_eq_true, decide_eq_true_eq, or_assoc]

theorem admission_refused {r : OrderRec} {f : Feed} {why : OrderRefusal} (h : orderRefusal r f = some why) :
    admission r f = .refused why := by
  unfold admission
  rw [h]

theorem admission_full {r : OrderRec} {f : Feed} (h : orderRefusal r f = none) (hfull : 32 ≤ f.orders.length) :
    admission r f = .full := by
  unfold admission
  rw [h]
  exact if_pos hfull

theorem admission_admitted {r : OrderRec} {f : Feed} (h : orderRefusal r f = none) (hroom : f.orders.length < 32) :
    admission r f = .admitted := by
  unfold admission
  rw [h]
  exact if_neg (Nat.not_le.mpr hroom)

/-- The entry of a record whose stack and station are indices (R81). -/
theorem newOrder_eq {r : OrderRec} {stack : Fin 4} {station : StationId} (hstack : stack.val = r.stack)
    (hstation : station.val = r.station) :
    newOrder r = ⟨r.tag, stack, station, r.len, r.batch, r.batch, 0, 0, r.dep, none⟩ := by
  have h4 : Fin.ofNat 4 r.stack = stack := by rw [← hstack]; exact Fin.ofNat_val_eq_self stack
  have h6 : Fin.ofNat 6 r.station = station := by rw [← hstation]; exact Fin.ofNat_val_eq_self station
  rw [newOrder, h4, h6]

/-- Settles O25: the tests of the table, then the capacity. -/
theorem orderWriteIsRefusedRetriedOrAdmitted : Obligations.OrderWriteIsRefusedRetriedOrAdmitted := by
  intro s tag addr ws r f picking tests hown
  have htests : firstFailing tests = orderRefusal r f := by
    rw [orderRefusal_eq, refusalTests, pickOf_eq, pickOf_eq]
    rfl
  rw [htests, exec_orderWrite hown]
  refine ⟨fun why hwhy => ?refused, fun hgood hfull => ?full, fun hgood hroom stack station hstack hstation => ?admitted⟩
  case refused =>
    have h : admission (.ofWords (dataOf ws)) s.unanswered.feed = .refused why := admission_refused hwhy
    unfold State.takeOrder
    rw [h]
    rfl
  case full =>
    have h : admission (.ofWords (dataOf ws)) s.unanswered.feed = .full := admission_full hgood hfull
    unfold State.takeOrder
    rw [h]
    rfl
  case admitted =>
    have h : admission (.ofWords (dataOf ws)) s.unanswered.feed = .admitted := admission_admitted hgood hroom
    unfold State.takeOrder
    rw [h, ← newOrder_eq hstack hstation]
    rfl

/-! ### Control commands taken (R156, R157) -/

/-- A control command other than a RELOAD_SETTINGS, taken and posted with its result (R156). -/
theorem exec_control {s : State} {tag : MasterTag} {addr : Addr} {code : BitVec 8} {r : ControlRec} {f : Feed}
    {res : Result} (hown : OwnerControl s tag addr)
    (hcommand : command (.ofWords (controlWords code r)) s.feed = some (f, res))
    (hreload : Command.ofCode code.toNat ≠ .reloadSettings) :
    done (s.present (controlTxn tag addr code r)) = .next (s.controls f tag addr code r res) := by
  have htook : tookReload (.ofWords (controlWords code r)) res = false := by
    rw [ControlFields.ofWords_control]
    exact decide_eq_false fun h => hreload h.1
  have hcommand' : command (.ofWords (controlWords code r)) s.unanswered.feed = some (f, res) := hcommand
  rw [State.present_control hown]
  unfold State.takeControl
  rw [hcommand']
  simp only [htook]
  rfl

/-- In RUN a command acts by its row of the table (R157). -/
theorem command_run {c : ControlFields} {f : Feed} (h : f.part = .run) : command c f = some (commandRun c f) := by
  unfold command
  rw [h]

/-! ### CANCEL_ORDER (R88, R89) -/

/-- CANCEL_ORDER in RUN is its row of the table, on the tag in operand A (R88). -/
theorem exec_cancelOrder {s : State} {tag : MasterTag} {addr : Addr} {r : ControlRec} {f : Feed} {res : Result}
    (hown : OwnerControl s tag addr) (hrun : s.feed.part = .run) (h : cancelOrder r.opA.toNat s.feed = (f, res)) :
    exec (.cancelOrder tag addr r) s = .next (s.controls f tag addr 2 r res) := by
  refine exec_control hown ?_ (by decide)
  rw [command_run hrun, ControlFields.ofWords_control, ← h]
  rfl

/-- An ORDER carry orphaned, with its event (R89, R91). -/
theorem orphan_eq {g : Gantry} {f : Feed} {k : Carry} (hcarry : f.ctx[g].carry = some k) (why : OrphanWhy) :
    f.orphan g why =
      (f.modCtx g fun c => { c with carry := some ⟨k.tag, k.len, .orphan⟩ }).raise .orphan g.val why.code := by
  rw [Feed.orphan, hcarry]
  rfl

theorem orderTag_some (k : Carry) (tag : Nat) : orderTag (some k) = some tag ↔ k.kind = .order ∧ k.tag = tag := by
  simp [orderTag]

/-- Settles O28: the refusals, then the two carries and the removal. -/
theorem cancelOrderInRun : Obligations.CancelOrderInRun := by
  intro s tag addr r f x listed concerns orphan orphaned hown hrun
  have hlisted : listed ↔ ¬(x = 0 ∨ (f.findOrder x).isNone = true) := by
    simp [listed, Option.isSome_iff_ne_none]
  have hconcerns : concerns ↔ flightConcerns f.ctx[0] x = true ∨ flightConcerns f.ctx[1] x = true := by
    rw [flightConcerns_iff, flightConcerns_iff]
    exact Fin.exists_fin_two
  have horphan (g : Gantry) (f : Feed) : f.orphanIf g x = orphan g f := by
    unfold Feed.orphanIf
    simp only [orphan]
    cases hcarry : f.ctx[g].carry with
    | none => rfl
    | some k => rw [orphan_eq hcarry]; exact if_congr (orderTag_some k x) rfl rfl
  refine ⟨fun hno => ?notFound, fun hyes hbusy => ?busy, fun hyes hfree => ?taken⟩ <;>
    refine exec_cancelOrder hown hrun ?_
  case notFound => exact if_pos (by_contra fun h => hno (hlisted.mpr h))
  case busy => exact (if_neg (hlisted.mp hyes)).trans (if_pos (hconcerns.mp hbusy))
  case taken =>
    have horphaned : (f.orphanIf 0 x).orphanIf 1 x = orphaned := by rw [horphan, horphan]
    exact (if_neg (hlisted.mp hyes)).trans ((if_neg (mt hconcerns.mpr hfree)).trans
      (congrArg (fun f' : Feed => ({ f' with orders := removeOrder x f'.orders }, Result.done)) horphaned))

/-! ### RESET_FEED (R91, R131 to R133) -/

/-- RESET_FEED in RUN is taken (R131). -/
theorem exec_resetFeed {s : State} {tag : MasterTag} {addr : Addr} {r : ControlRec} (hown : OwnerControl s tag addr)
    (hrun : s.feed.part = .run) :
    exec (.resetFeed tag addr r) s = .next (s.controls (resetFeed s.feed) tag addr 5 r .done) := by
  refine exec_control hown ?_ (by decide)
  rw [command_run hrun, ControlFields.ofWords_control]
  rfl

/-- The stations in ascending index (R131). -/
theorem resetStations_eq (f : Feed) : f.resetStations =
    (((((f.resetStation 0).resetStation 1).resetStation 2).resetStation 3).resetStation 4).resetStation 5 := by
  simp only [Feed.resetStations, List.foldl_cons, List.foldl_nil]

/-- Settles O35: the meaning step by step, and no step of it changes a move in flight. -/
theorem resetFeedInRun : Obligations.ResetFeedInRun := by
  intro s tag addr r orphan fault halt f1 f2 hown hrun
  have horphan (g : Gantry) (f : Feed) : f.orphanAny g = orphan g f := by
    unfold Feed.orphanAny
    simp only [orphan]
    cases hcarry : f.ctx[g].carry with
    | none => rfl
    | some k => rw [orphan_eq hcarry]; exact if_congr (by simp [orderTag]) rfl rfl
  have hfault (st : StationId) (f : Feed) : f.resetStation st = fault st f := by
    unfold Feed.resetStation
    simp only [midPlacement, decide_eq_true_eq]
    rfl
  have hhalt (g : Gantry) (f : Feed) : f.resetCtx g = halt g f := rfl
  clear_value orphan fault halt
  have hreset : resetFeed s.feed = halt 1 (halt 0 f2) := by
    simp only [resetFeed, Feed.dropOrders, resetStations_eq, horphan, hfault, hhalt, f2, f1]
  clear_value f2
  refine ⟨?_, fun g => ?_⟩
  · rw [← hreset]
    exact exec_resetFeed hown hrun
  · rw [← hreset, (resetFeed_sameLoad s.feed g).flight, dispossessed_flight]

end Sys2Proof.Machine
end

section
/-! SUPPORT. The law of the stations as facts by name (R107, R108), and the changes of stations and placements in flight
that keep it. -/

namespace Sys2Proof.Machine

/-! ### Placements in flight -/

/-- The move is a PLACE to the station (R108). -/
def Flight.PlacesTo (m : Flight) (st : StationId) : Prop := m.kind = .place ∧ m.station = some st

theorem placeTo_iff (c : Ctx) (st : StationId) : placeTo c st = true ↔ ∃ m, c.flight = some m ∧ m.PlacesTo st := by
  unfold placeTo
  cases c.flight <;> simp [Flight.PlacesTo]

theorem placeTo_congr {c c' : Ctx} (h : c'.flight = c.flight) (st : StationId) : placeTo c' st = placeTo c st := by
  unfold placeTo
  rw [h]

theorem placeTo_of_none {c : Ctx} (h : c.flight = none) (st : StationId) : placeTo c st = false := by
  unfold placeTo
  rw [h]

theorem placeTo_of_some {c : Ctx} {m : Flight} (h : c.flight = some m) (st : StationId) :
    placeTo c st = true ↔ m.PlacesTo st := by
  simp [placeTo_iff, h]

/-! ### The law -/

/-- The law of the stations with what keeps it, said of each gantry (R107, R108). -/
structure StationsLaw (f : Feed) : Prop where
  alone : ∀ (g : Gantry) (st : StationId), placeTo f.ctx[g] st = true → placeTo f.ctx[other g] st = false
  placed : ∀ st : StationId, f.stations[st].state = .assigned → ∃ g : Gantry, placeTo f.ctx[g] st = true
  idle : ∀ g : Gantry, f.ctx[g].state = .idle → f.ctx[g].flight = none
  meets : ∀ (g : Gantry) (st : StationId), placeTo f.ctx[g] st = true →
    f.stations[st].state = .assigned ∨ f.stations[st].state = .fault

theorem stationsLaw_iff (f : Feed) : StationInv f ↔ StationsLaw f := by
  constructor
  · rintro ⟨law, idle, meets⟩
    refine ⟨fun g st hg => ?_, fun st hst => Fin.exists_fin_two.mpr ((law st).2 hst), idle, meets⟩
    refine Bool.eq_false_iff.mpr fun ho => (law st).1 ?_
    rcases gantry_cases g with rfl | rfl
    · exact ⟨hg, ho⟩
    · exact ⟨ho, hg⟩
  · rintro ⟨alone, placed, idle, meets⟩
    refine ⟨fun st => ⟨fun ⟨h0, h1⟩ => ?_, fun hst => Fin.exists_fin_two.mp (placed st hst)⟩, idle, meets⟩
    exact Bool.false_ne_true ((alone 0 st h0).symm.trans h1)

/-- No move in flight goes to a station that is neither ASSIGNED nor in FAULT (R107). -/
theorem StationsLaw.unclaimed {f : Feed} (h : StationsLaw f) {st : StationId} {x : StState}
    (hx : f.stations[st].state = x) (hassigned : x ≠ .assigned) (hfault : x ≠ .fault) (g : Gantry) :
    placeTo f.ctx[g] st = false :=
  Bool.eq_false_iff.mpr fun hg => (h.meets g st hg).elim (hx ▸ hassigned) (hx ▸ hfault)

theorem other_other (g : Gantry) : other (other g) = g := by fin_cases g <;> decide

/-- What holds of a gantry and of the other one holds of every gantry. -/
theorem forall_gantry {P : Gantry → Prop} (g : Gantry) (own : P g) (apart : P (other g)) (g' : Gantry) : P g' := by
  rcases eq_or_other g g' with rfl | rfl
  · exact own
  · exact apart

/-! ### Changes that keep the law -/

/-- What a change that accepts no move may do to a station. -/
inductive StationMove (f f' : Feed) (st : StationId) : Prop
  | kept (state : f'.stations[st].state = f.stations[st].state)
      (placing : ∀ g : Gantry, placeTo f'.ctx[g] st = placeTo f.ctx[g] st)
  | faulted (state : f'.stations[st].state = .fault)
  | unclaimed (state : f'.stations[st].state ≠ .assigned) (placing : ∀ g : Gantry, placeTo f'.ctx[g] st = false)

/-- A change that accepts no move keeps the law. -/
theorem stationsLaw_of_moves {f f' : Feed}
    (flight : ∀ g : Gantry, f'.ctx[g].flight = f.ctx[g].flight ∨ f'.ctx[g].flight = none)
    (idle : ∀ g : Gantry, f'.ctx[g].state = .idle → f'.ctx[g].flight = none)
    (stations : ∀ st, StationMove f f' st) (h : StationsLaw f) : StationsLaw f' := by
  have before {g : Gantry} {st : StationId} (hg : placeTo f'.ctx[g] st = true) : placeTo f.ctx[g] st = true := by
    rcases flight g with hsame | hnone
    · rwa [placeTo_congr hsame] at hg
    · rw [placeTo_of_none hnone] at hg
      cases hg
  refine ⟨fun g st hg => ?alone, fun st hst => ?placed, idle, fun g st hg => ?meets⟩
  case alone =>
    refine Bool.eq_false_iff.mpr fun ho => ?_
    exact Bool.false_ne_true ((h.alone g st (before hg)).symm.trans (before ho))
  case placed =>
    cases stations st with
    | kept state placing =>
      obtain ⟨g, hg⟩ := h.placed st (state.symm.trans hst)
      exact ⟨g, (placing g).trans hg⟩
    | faulted state => cases state.symm.trans hst
    | unclaimed state _ => exact absurd hst state
  case meets =>
    cases stations st with
    | kept state _ =>
      rw [state]
      exact h.meets g st (before hg)
    | faulted state => exact .inr state
    | unclaimed _ placing => cases (placing g).symm.trans hg

/-- A context with the same move in flight, and IDLE only where it was. -/
structure Ctx.SameMove (c c' : Ctx) : Prop where
  flight : c'.flight = c.flight
  idle : c'.state = .idle → c.state = .idle

theorem Ctx.SameMove.of_eq {c c' : Ctx} (h : c' = c) : Ctx.SameMove c c' := h ▸ ⟨rfl, id⟩

theorem Ctx.Alike.sameMove {cfg : Settings} {c c' : Ctx} (h : Ctx.Alike cfg c c') : Ctx.SameMove c c' :=
  ⟨h.flight, h.state.symm.trans⟩

/-- Changes within the contexts that leave each its move in flight. -/
theorem stationsLaw_of_ctx {f f' : Feed} (stations : f'.stations = f.stations)
    (ctx : ∀ g : Gantry, Ctx.SameMove f.ctx[g] f'.ctx[g]) (h : StationsLaw f) : StationsLaw f' :=
  stationsLaw_of_moves (fun g => .inl (ctx g).flight)
    (fun g hidle => (ctx g).flight.trans (h.idle g ((ctx g).idle hidle)))
    (fun st => .kept (by rw [stations]) fun g => placeTo_congr (ctx g).flight st) h

/-- Changes beside the contexts and the stations. -/
theorem stationsLaw_of_floor {f f' : Feed} (floor : f'.floor = f.floor) (stations : f'.stations = f.stations)
    (h : StationsLaw f) : StationsLaw f' :=
  stationsLaw_of_ctx stations (fun _ => .of_eq (by rw [(Floor.mk.inj floor).2.2.2])) h

theorem stationsLaw_raise (c : EventCode) (n d : Nat) {f : Feed} (h : StationsLaw f) : StationsLaw (f.raise c n d) :=
  stationsLaw_of_floor (Feed.raise_floor ..) (Feed.raise_stations ..) h

theorem stationsLaw_modCtx {g : Gantry} {k : Ctx → Ctx} {f : Feed} (own : Ctx.SameMove f.ctx[g] (k f.ctx[g]))
    (h : StationsLaw f) : StationsLaw (f.modCtx g k) :=
  stationsLaw_of_ctx (f := f) rfl
    (forall_gantry g (by rwa [modCtx_own]) (.of_eq (modCtx_apart (other_ne g) k f))) h

theorem stationsLaw_setRail (t : Rail) {f : Feed} (h : StationsLaw f) : StationsLaw (f.setRail t) :=
  stationsLaw_of_ctx (f := f) rfl (fun g => (setRail_alike t f g).sameMove) h

theorem stationsLaw_of_aside {g : Gantry} {f f' : Feed} (aside : Aside g f f')
    (own : Ctx.SameMove f.ctx[g] f'.ctx[g]) (stations : f'.stations = f.stations) (h : StationsLaw f) :
    StationsLaw f' :=
  stationsLaw_of_ctx stations (forall_gantry g own aside.apart.sameMove) h

/-! ### One station's entry -/

/-- Only the entry of one station is changed. -/
structure OnlyAt (st : StationId) (f f' : Feed) : Prop where
  floor : f'.floor = f.floor
  apart : ∀ st' : StationId, st' ≠ st → f'.stations[st'] = f.stations[st']

theorem modStation_apart {st st' : StationId} (hne : st' ≠ st) (k : Station → Station) (f : Feed) :
    (f.modStation st k).stations[st'] = f.stations[st'] := by
  have : st.val ≠ st'.val := fun he => hne (Fin.ext he.symm)
  simp [this]

theorem OnlyAt.modStation (st : StationId) (k : Station → Station) (f : Feed) : OnlyAt st f (f.modStation st k) :=
  ⟨rfl, fun _ hne => modStation_apart hne k f⟩

theorem OnlyAt.modStation_raise (st : StationId) (k : Station → Station) (c : EventCode) (n d : Nat) (f : Feed) :
    OnlyAt st f ((f.modStation st k).raise c n d) :=
  ⟨Feed.raise_floor .., fun _ hne => by rw [Feed.raise_stations]; exact modStation_apart hne k f⟩

theorem OnlyAt.ctx {st : StationId} {f f' : Feed} (h : OnlyAt st f f') : f'.ctx = f.ctx := (Floor.mk.inj h.floor).2.2.2

theorem stationsLaw_of_entry {st : StationId} {f f' : Feed} (only : OnlyAt st f f') (own : StationMove f f' st)
    (h : StationsLaw f) : StationsLaw f' := by
  have same (g : Gantry) : Ctx.SameMove f.ctx[g] f'.ctx[g] := .of_eq (by rw [only.ctx])
  refine stationsLaw_of_moves (fun g => .inl (same g).flight) (fun g hidle => ?_) (fun st' => ?_) h
  · exact (same g).flight.trans (h.idle g ((same g).idle hidle))
  · by_cases hst : st' = st
    · exact hst ▸ own
    · exact .kept (by rw [only.apart st' hst]) fun g => placeTo_congr (same g).flight st'

/-- A change of an entry that leaves its state. -/
theorem stationsLaw_sameState {st : StationId} {k : Station → Station} {f : Feed}
    (state : (k f.stations[st]).state = f.stations[st].state) (h : StationsLaw f) : StationsLaw (f.modStation st k) :=
  stationsLaw_of_entry (.modStation st k f) (.kept (by rwa [modStation_own]) fun _ => rfl) h

/-- A station with no placement on its way takes any state but ASSIGNED. -/
theorem stationsLaw_modStation {st : StationId} {k : Station → Station} {f : Feed}
    (unclaimed : ∀ g : Gantry, placeTo f.ctx[g] st = false) (state : (k f.stations[st]).state ≠ .assigned)
    (h : StationsLaw f) : StationsLaw (f.modStation st k) :=
  stationsLaw_of_entry (.modStation st k f) (.unclaimed (by rwa [modStation_own]) unclaimed) h

theorem stationsLaw_faultStation (st : StationId) (why : StReason) {f : Feed} (h : StationsLaw f) :
    StationsLaw (f.faultStation st why) :=
  stationsLaw_of_entry (.modStation_raise ..)
    (.faulted (by rw [Feed.faultStation, Feed.raise_stations, modStation_own]; rfl)) h

theorem stationsLaw_blockStation {st : StationId} (why : StReason) {f : Feed}
    (unclaimed : ∀ g : Gantry, placeTo f.ctx[g] st = false) (h : StationsLaw f) : StationsLaw (f.blockStation st why) :=
  stationsLaw_raise _ _ _ (stationsLaw_modStation unclaimed (by simp [Station.stopped]) h)

/-! ### The end of a move and the acceptance of one -/

/-- After the end of a move its station is not ASSIGNED, and no other station has changed its state (R107). -/
structure Vacates (m : Flight) (f f' : Feed) : Prop where
  own : ∀ st, m.PlacesTo st → f'.stations[st].state ≠ .assigned
  apart : ∀ st, ¬m.PlacesTo st → f'.stations[st].state = f.stations[st].state

/-- The end of a move keeps the law, if it vacates the station. -/
theorem stationsLaw_of_ended {g : Gantry} {m : Flight} {f f' : Feed} (hm : f.ctx[g].flight = some m)
    (own : f'.ctx[g].flight = none) (apart : Ctx.SameMove f.ctx[other g] f'.ctx[other g])
    (stations : Vacates m f f') (h : StationsLaw f) : StationsLaw f' := by
  refine stationsLaw_of_moves (forall_gantry g (.inr own) (.inl apart.flight))
    (forall_gantry g (fun _ => own) fun hidle => apart.flight.trans (h.idle _ (apart.idle hidle))) (fun st => ?_) h
  by_cases hst : m.PlacesTo st
  · have hother := h.alone g st ((placeTo_of_some hm st).mpr hst)
    exact .unclaimed (stations.own st hst)
      (forall_gantry g (placeTo_of_none own st) ((placeTo_congr apart.flight st).trans hother))
  · have hown : placeTo f.ctx[g] st = false := Bool.eq_false_iff.mpr fun hg => hst ((placeTo_of_some hm st).mp hg)
    exact .kept (stations.apart st hst)
      (forall_gantry g ((placeTo_of_none own st).trans hown.symm) (placeTo_congr apart.flight st))

/-- The acceptance of a move takes its station from EMPTY to ASSIGNED, and changes no other station's state (R43,
R103). -/
structure Assigns (m : Flight) (f f' : Feed) : Prop where
  before : ∀ st, m.PlacesTo st → f.stations[st].state = .empty
  own : ∀ st, m.PlacesTo st → f'.stations[st].state = .assigned
  apart : ∀ st, ¬m.PlacesTo st → f'.stations[st].state = f.stations[st].state

/-- The acceptance of a move keeps the law: no other move goes to a station that stood EMPTY. -/
theorem stationsLaw_of_accepted {g : Gantry} {m : Flight} {f f' : Feed} (hidle : f.ctx[g].state = .idle)
    (own : f'.ctx[g].flight = some m) (moving : f'.ctx[g].state = .moving)
    (apart : Ctx.SameMove f.ctx[other g] f'.ctx[other g]) (stations : Assigns m f f') (h : StationsLaw f) :
    StationsLaw f' := by
  have free {st : StationId} (hst : m.PlacesTo st) (g' : Gantry) : placeTo f.ctx[g'] st = false :=
    h.unclaimed (stations.before st hst) (by decide) (by decide) g'
  have hown (st : StationId) := placeTo_of_some own st
  have hother (st : StationId) := placeTo_congr apart.flight st
  have hnone (st : StationId) : placeTo f.ctx[g] st = false := placeTo_of_none (h.idle g hidle) st
  refine ⟨?alone, fun st hst => ?placed, ?idle, ?meets⟩
  case alone =>
    refine forall_gantry g (fun st hg => ?_) fun st ho => ?_
    · exact (hother st).trans (free ((hown st).mp hg) _)
    · simp only [other_other]
      refine Bool.eq_false_iff.mpr fun hg => ?_
      exact Bool.false_ne_true ((free ((hown st).mp hg) (other g)).symm.trans ((hother st).symm.trans ho))
  case placed =>
    by_cases hm : m.PlacesTo st
    · exact ⟨g, (hown st).mpr hm⟩
    · obtain ⟨g', hg'⟩ := h.placed st ((stations.apart st hm).symm.trans hst)
      rcases eq_or_other g g' with rfl | rfl
      · cases (hnone st).symm.trans hg'
      · exact ⟨other g, (hother st).trans hg'⟩
  case idle =>
    refine forall_gantry g (fun hg => ?_) fun ho => apart.flight.trans (h.idle _ (apart.idle ho))
    cases moving.symm.trans hg
  case meets =>
    refine forall_gantry g (fun st hg => .inl (stations.own st ((hown st).mp hg))) fun st ho => ?_
    have hbefore := (hother st).symm.trans ho
    have hm : ¬m.PlacesTo st := fun hm => Bool.false_ne_true ((free hm (other g)).symm.trans hbefore)
    rw [stations.apart st hm]
    exact h.meets _ st hbefore

end Sys2Proof.Machine
end

section
/-! SUPPORT. Every act on the feed side keeps the law of the stations (R107, R108). -/

namespace Sys2Proof.Machine

/-! ### Operations that leave the stations alone -/

@[simp] theorem Feed.lowerOut_stations (tag : Nat) (f : Feed) : (f.lowerOut tag).stations = f.stations := rfl

@[simp] theorem Feed.faultOrder_stations (tag : Nat) (why : OrderFault) (f : Feed) :
    (f.faultOrder tag why).stations = f.stations := by
  unfold Feed.faultOrder; split <;> [(split <;> simp); rfl]

@[simp] theorem Feed.lostPanel_stations (tag : Nat) (f : Feed) : (f.lostPanel tag).stations = f.stations := by
  simp [Feed.lostPanel]

@[simp] theorem Feed.mispicked_stations (tag : Nat) (f : Feed) : (f.mispicked tag).stations = f.stations := by
  unfold Feed.mispicked; split <;> [(simp only; split <;> simp); rfl]

theorem Feed.onOrder_stations {h : Nat → Feed → Feed} (hh : ∀ tag f, (h tag f).stations = f.stations)
    (k : Option Carry) (f : Feed) : (f.onOrder k h).stations = f.stations := by
  unfold Feed.onOrder; split <;> [exact hh _ f; rfl]

theorem atStation_stations {h : StationId → Feed → Feed} (hh : ∀ st f, (h st f).stations = f.stations) (m : Flight)
    (f : Feed) : (atStation m h f).stations = f.stations := by
  unfold atStation; split <;> [exact hh _ f; rfl]

@[simp] theorem closeOrder_stations (m : Flight) (vac : Bool) (k : Option Carry) (f : Feed) :
    (closeOrder m vac k f).stations = f.stations := by
  unfold closeOrder
  split
  · rfl
  · split
    · rfl
    · exact Feed.lowerOut_stations ..
    · exact Feed.onOrder_stations Feed.lostPanel_stations ..
    · exact Feed.onOrder_stations Feed.lowerOut_stations ..

@[simp] theorem closeFlight_stations (g : Gantry) (m : Flight) (f : Feed) :
    (f.closeFlight g m).stations = (closeStation m f).stations := by
  simp [Feed.closeFlight]

@[simp] theorem Feed.memFault_stations (n : Nat) (a : Area) (f : Feed) : (f.memFault n a).stations = f.stations := by
  simp [Feed.memFault]

@[simp] theorem Feed.endNotice_stations (st : StationId) (b : Bool) (f : Feed) :
    (f.endNotice st b).stations = f.stations := by
  simp only [Feed.endNotice]
  split
  · exact Feed.memFault_stations ..
  · rfl

@[simp] theorem Feed.endEvent_stations (b : Bool) (f : Feed) : (f.endEvent b).stations = f.stations := by
  unfold Feed.endEvent
  split
  · rfl
  · split
    · simp only
      split
      · rfl
      · exact Feed.memFault_stations ..
    · rfl

@[simp] theorem ackEvents_stations (a : Nat) (f : Feed) : (ackEvents a f).1.stations = f.stations := by
  unfold ackEvents; split_ifs <;> rfl

@[simp] theorem Feed.mutualTest_stations (g : Gantry) (kind : Blocking) (f : Feed) :
    (f.mutualTest g kind).stations = f.stations := by
  unfold Feed.mutualTest
  split
  · exact Feed.raise_stations ..
  · rfl

/-! ### Halts and the grip -/

theorem stationsLaw_haltCtx (g : Gantry) (r : HaltReason) (b : Option BadMove) {f : Feed} (h : StationsLaw f) :
    StationsLaw (f.haltCtx g r b) :=
  have own := haltCtx_own g r b f
  stationsLaw_of_aside (aside_haltCtx g r b f) ⟨own.flight, fun hidle => by cases own.state.symm.trans hidle⟩
    (Feed.haltCtx_stations ..) h

theorem stationsLaw_furtherFault (g : Gantry) (r : HaltReason) {f : Feed} (h : StationsLaw f) :
    StationsLaw (f.furtherFault g r) :=
  stationsLaw_of_aside (aside_furtherFault g r f) (furtherFault_own g r f).sameMove (Feed.furtherFault_stations ..) h

theorem stationsLaw_fault (g : Gantry) (r : HaltReason) {f : Feed} (h : StationsLaw f) : StationsLaw (f.fault g r) := by
  unfold Feed.fault
  split
  · exact stationsLaw_furtherFault g r h
  · exact stationsLaw_haltCtx g r none h

theorem stationsLaw_setCarry (g : Gantry) (k : Option Carry) {f : Feed} (h : StationsLaw f) :
    StationsLaw (f.setCarry g k) :=
  stationsLaw_modCtx ⟨rfl, id⟩ h

/-- A panel lost from the grip is no station's (R70). -/
theorem stationsLaw_loseCarry (g : Gantry) {f : Feed} (h : StationsLaw f) :
    StationsLaw ((f.setCarry g none).onOrder f.ctx[g].carry Feed.lostPanel) :=
  stationsLaw_of_floor (Feed.onOrder_floor Feed.lostPanel_floor ..) (Feed.onOrder_stations Feed.lostPanel_stations ..)
    (stationsLaw_setCarry g none h)

theorem stationsLaw_drop (g : Gantry) {f : Feed} (h : StationsLaw f) : StationsLaw (f.drop g) :=
  stationsLaw_fault g .drop (stationsLaw_loseCarry g h)

theorem stationsLaw_unexpectedGrip (g : Gantry) {f : Feed} (h : StationsLaw f) : StationsLaw (f.unexpectedGrip g) :=
  stationsLaw_fault g .unexpectedGrip (stationsLaw_setCarry g _ h)

theorem stationsLaw_gripCheck (g : Gantry) {f : Feed} (h : StationsLaw f) : StationsLaw (f.gripCheck g) := by
  unfold Feed.gripCheck
  split_ifs
  · exact h
  · exact stationsLaw_drop g h
  · exact stationsLaw_unexpectedGrip g h
  · exact h

theorem stationsLaw_vacFallen (g : Gantry) {f : Feed} (h : StationsLaw f) : StationsLaw (f.vacFallen g) := by
  unfold Feed.vacFallen
  split_ifs
  · exact h
  · exact stationsLaw_drop g h
  · exact h

theorem stationsLaw_vacRisen (g : Gantry) {f : Feed} (h : StationsLaw f) : StationsLaw (f.vacRisen g) := by
  unfold Feed.vacRisen
  split_ifs
  · exact h
  · exact h
  · exact stationsLaw_unexpectedGrip g h

/-! ### The station at the end of a PLACE (R104 to R107) -/

/-- A station is left out of ASSIGNED, and no other station is touched. -/
structure Leaves (st : StationId) (f f' : Feed) : Prop where
  own : f'.stations[st].state ≠ .assigned
  apart : ∀ st' : StationId, st' ≠ st → f'.stations[st'] = f.stations[st']

theorem leaves_modStation {st : StationId} {k : Station → Station} {f : Feed}
    (state : (k f.stations[st]).state ≠ .assigned) : Leaves st f (f.modStation st k) :=
  ⟨by rwa [modStation_own], (OnlyAt.modStation st k f).apart⟩

theorem leaves_modStation_raise {st : StationId} {k : Station → Station} {f : Feed} (c : EventCode) (n d : Nat)
    (state : (k f.stations[st]).state ≠ .assigned) : Leaves st f ((f.modStation st k).raise c n d) :=
  ⟨by rwa [Feed.raise_stations, modStation_own], (OnlyAt.modStation_raise st k c n d f).apart⟩

theorem leaves_landed (st : StationId) (f : Feed) : Leaves st f (f.landed st) := by
  unfold Feed.landed
  split
  · refine leaves_modStation ?_
    split <;> exact StState.noConfusion
  case isFalse hst => exact ⟨hst, fun _ _ => rfl⟩

theorem leaves_returned (st : StationId) (f : Feed) : Leaves st f (f.returned st) := by
  unfold Feed.returned
  split
  · split
    · exact leaves_modStation_raise _ _ _ StState.noConfusion
    · exact leaves_modStation StState.noConfusion
  case isFalse hst => exact ⟨hst, fun _ _ => rfl⟩

theorem leaves_deliveryUnknown (st : StationId) (f : Feed) : Leaves st f (f.deliveryUnknown st) := by
  unfold Feed.deliveryUnknown
  split
  · exact leaves_modStation_raise _ _ _ StState.noConfusion
  case isFalse hst => exact ⟨hst, fun _ _ => rfl⟩

/-- A move to no station vacates none. -/
theorem vacates_of_elsewhere {m : Flight} {f f' : Feed} (h : ∀ st, ¬m.PlacesTo st)
    (stations : f'.stations = f.stations) : Vacates m f f' :=
  ⟨fun st hst => absurd hst (h st), fun st _ => by rw [stations]⟩

theorem elsewhere_of_kind {m : Flight} {k : MoveKind} (hkind : m.kind = k) (hne : k ≠ .place) (st : StationId) :
    ¬m.PlacesTo st := fun hst => hne (hkind.symm.trans hst.1)

/-- A PLACE vacates its station by an effect that leaves it out of ASSIGNED, after effects beside the stations. -/
theorem vacates_atStation {m : Flight} {k : StationId → Feed → Feed} {f e : Feed} (hkind : m.kind = .place)
    (leaves : ∀ st f, Leaves st f (k st f)) (stations : e.stations = f.stations) : Vacates m f (atStation m k e) := by
  unfold atStation
  split
  case h_1 st hst =>
    refine ⟨fun st' hst' => ?_, fun st' hst' => ?_⟩
    · obtain rfl : st = st' := Option.some.inj (hst.symm.trans hst'.2)
      exact (leaves st e).own
    · rw [(leaves st e).apart st' fun he => hst' ⟨hkind, he ▸ hst⟩, stations]
  case h_2 hnone => exact vacates_of_elsewhere (fun st hst => by cases hnone.symm.trans hst.2) stations

/-- The unsettled close vacates the station of a PLACE (R66, R106). -/
theorem vacates_closeStation (m : Flight) (f : Feed) : Vacates m f (closeStation m f) := by
  cases hkind : m.kind with
  | place =>
    have heq : closeStation m f = atStation m Feed.deliveryUnknown f := by
      unfold closeStation atStation
      rw [hkind]
      cases m.station <;> rfl
    exact heq ▸ vacates_atStation hkind leaves_deliveryUnknown rfl
  | travel | pick | reject =>
    have hne := elsewhere_of_kind hkind (by decide)
    exact vacates_of_elsewhere hne (by rw [closeStation_elsewhere hkind (by decide)])

/-- The clean ending of a PLACE vacates its station (R59, R104, R105). -/
theorem vacates_settlePlace {m : Flight} (hkind : m.kind = .place) (g : Gantry) (e : Ending) (vac : Bool)
    (k : Option Carry) (f : Feed) : Vacates m f (settlePlace g m e vac k f) := by
  unfold settlePlace
  split
  · split
    · exact vacates_atStation hkind leaves_returned (atStation_stations (fun _ _ => Feed.raise_stations ..) m f)
    · exact vacates_atStation hkind leaves_landed (Feed.onOrder_stations placedPanel_stations k f)
  · exact vacates_atStation hkind leaves_returned rfl

theorem settlePick_stations (m : Flight) (e : Ending) (vac : Bool) (f : Feed) :
    (settlePick m e vac f).stations = f.stations := by
  unfold settlePick
  split <;> [(split <;> simp); simp]

theorem settleReject_stations (g : Gantry) (e : Ending) (vac : Bool) (k : Option Carry) (f : Feed) :
    (settleReject g e vac k f).stations = f.stations := by
  unfold settleReject
  split
  · split
    · exact Feed.raise_stations ..
    · exact Feed.onOrder_stations Feed.lowerOut_stations ..
  · rfl

/-- A clean ending vacates the station of its move (R57 to R61). -/
theorem vacates_settleEffects (g : Gantry) (m : Flight) (e : Ending) (vac : Bool) (k : Option Carry) (f : Feed) :
    Vacates m f (settleEffects g m e vac k f) := by
  cases hkind : m.kind with
  | travel => exact vacates_of_elsewhere (elsewhere_of_kind hkind (by decide)) (by rw [settleEffects_travel hkind])
  | pick =>
    refine vacates_of_elsewhere (elsewhere_of_kind hkind (by decide)) ?_
    rw [settleEffects_pick hkind, settlePick_stations]
  | place =>
    rw [settleEffects_place hkind]
    exact vacates_settlePlace hkind ..
  | reject =>
    refine vacates_of_elsewhere (elsewhere_of_kind hkind (by decide)) ?_
    rw [settleEffects_reject hkind, settleReject_stations]

/-! ### Completions -/

/-- The unsettled close ends the move and vacates its station (R66). -/
theorem stationsLaw_closeFlight {g : Gantry} {m : Flight} {f : Feed} (hm : f.ctx[g].flight = some m)
    (h : StationsLaw f) : StationsLaw (f.closeFlight g m) := by
  have vacates := vacates_closeStation m f
  refine stationsLaw_of_ended hm (by rw [closeFlight_own]) (.of_eq (closeFlight_apart g m f)) ⟨?_, ?_⟩ h
  · rw [closeFlight_stations]
    exact vacates.own
  · rw [closeFlight_stations]
    exact vacates.apart

theorem stationsLaw_setPos (g : Gantry) (p : Option Nat) {f : Feed} (h : StationsLaw f) :
    StationsLaw (f.modCtx g fun c => { c with pos := p }) :=
  stationsLaw_modCtx ⟨rfl, id⟩ h

theorem stationsLaw_setLastDone (g : Gantry) (b : Bool) {f : Feed} (h : StationsLaw f) :
    StationsLaw (f.modCtx g fun c => { c with lastDone := b }) :=
  stationsLaw_modCtx ⟨rfl, id⟩ h

theorem stationsLaw_endFaulted {g : Gantry} {m : Flight} {f : Feed} (r : CompletionRec) (why : HaltReason)
    (hm : f.ctx[g].flight = some m) (h : StationsLaw f) : StationsLaw (f.endFaulted g m r why) := by
  unfold Feed.endFaulted
  have halted := stationsLaw_haltCtx g why none (stationsLaw_setPos g (reachedPos f r.reached) h)
  refine stationsLaw_setLastDone g _ (stationsLaw_closeFlight ?_ halted)
  rw [(haltCtx_own ..).flight, modCtx_own]
  exact hm

theorem stationsLaw_endLate {g : Gantry} {m : Flight} {f : Feed} (r : CompletionRec) (hm : f.ctx[g].flight = some m)
    (h : StationsLaw f) : StationsLaw (f.endLate g m r) := by
  unfold Feed.endLate
  refine stationsLaw_setLastDone g _ (stationsLaw_closeFlight ?_ (stationsLaw_setPos g _ h))
  rw [modCtx_own]
  exact hm

/-- A settled move leaves its context IDLE with no move in flight, and its station vacated (R57). -/
theorem stationsLaw_settle {g : Gantry} {m : Flight} {f : Feed} (r : CompletionRec) (t : Rail)
    (hm : f.ctx[g].flight = some m) (h : StationsLaw f) : StationsLaw (f.settle g m r t) := by
  let e := settleEffects g m r.ending (f.vacOf g) f.ctx[g].carry (f.setRail t)
  have hctx : e.ctx = (f.setRail t).ctx := (Floor.mk.inj (settleEffects_floor ..)).2.2.2
  have vacates : Vacates m (f.setRail t) e := vacates_settleEffects ..
  refine stationsLaw_gripCheck g (stationsLaw_of_ended hm ?own ?apart ⟨vacates.own, vacates.apart⟩ h)
  case own => rw [modCtx_own]; rfl
  case apart =>
    rw [modCtx_apart (other_ne g), hctx]
    exact (setRail_alike t f (other g)).sameMove

theorem stationsLaw_endClean {g : Gantry} {m : Flight} {f : Feed} (r : CompletionRec) (hm : f.ctx[g].flight = some m)
    (h : StationsLaw f) : StationsLaw (f.endClean g m r) := by
  unfold Feed.endClean
  split
  · exact stationsLaw_settle r _ hm h
  · exact stationsLaw_endFaulted r .span hm h

/-- A completion taken keeps the law (R54). -/
theorem stationsLaw_complete (g : Gantry) (r : CompletionRec) {f : Feed} (h : StationsLaw f) :
    StationsLaw (complete g r f).1 := by
  unfold complete
  split
  · unfold completeMoving
    split
    case h_1 hm _ => exact stationsLaw_endClean r (flight_of_matched hm) h
    case h_2 hm _ => exact stationsLaw_endClean r (flight_of_matched hm) h
    case h_3 hm _ => exact stationsLaw_endFaulted r .driveFault (flight_of_matched hm) h
    · exact stationsLaw_haltCtx g .mismatch none h
    · exact stationsLaw_haltCtx g .mismatch none h
  · unfold completeIdle
    split
    · exact h
    · exact stationsLaw_haltCtx g .mismatch none h
  · unfold completeHalted
    split
    case h_1 hm => exact stationsLaw_endLate r (flight_of_matched hm) h
    · exact stationsLaw_furtherFault g .mismatch h

/-! ### Judged reads -/

theorem stationsLaw_setMemRun (g : Gantry) (n : Nat) {f : Feed} (h : StationsLaw f) : StationsLaw (f.setMemRun g n) :=
  stationsLaw_modCtx ⟨rfl, id⟩ h

theorem stationsLaw_railWait (g : Gantry) (i : WaitId) (kind : Blocking) {f : Feed} (h : StationsLaw f) :
    StationsLaw (f.railWait g i kind) := by
  have count : StationsLaw (f.countWait g i) := by
    unfold Feed.countWait
    split
    · exact stationsLaw_modCtx ⟨rfl, id⟩ h
    · exact stationsLaw_modCtx ⟨rfl, id⟩ (stationsLaw_setRail _ h)
  have starve {f : Feed} (h : StationsLaw f) : StationsLaw (f.starve g kind) := by
    unfold Feed.starve
    split
    · simp only
      split
      · exact stationsLaw_raise _ _ _ (stationsLaw_setRail _ h)
      · exact stationsLaw_setRail _ h
    · exact h
  exact stationsLaw_of_floor (Feed.mutualTest_floor ..) (Feed.mutualTest_stations ..) (starve count)

/-- A PLACE that passes the tests of R39 finds its station EMPTY. -/
theorem empty_of_notYet {g : Gantry} {r : MoveRec} {f : Feed} {o : Order} (hnone : notYet g .place r f = none)
    (ho : moveOrder g .place r f = some o) : f.stations[o.station].state = .empty := by
  have ho' : (orderTag f.ctx[g].carry).bind f.findOrder = some o := ho
  unfold notYet at hnone
  simp only [ho'] at hnone
  by_contra hne
  rw [if_pos hne] at hnone
  cases hnone

/-- Of the stations the placement changes the entry of its own, which goes to ASSIGNED (R103). -/
theorem assign_stations (g : Gantry) (o : Order) (f : Feed) : ∃ k : Station → Station,
    (∀ x, (k x).state = .assigned) ∧ (f.assign g o).stations = (f.modStation o.station k).stations :=
  ⟨fun x => { x with
      state := .assigned, early := false, noticeToggle := !x.noticeToggle, noticeTag := o.tag,
      noticeBatch := batchIndex o }, fun _ => rfl, rfl⟩

/-- An accepted PLACE assigns its station, and any other accepted move none (R41, R43). -/
theorem assigns_accept {g : Gantry} {k : MoveKind} {r : MoveRec} {f : Feed} (run : Span) (t : Rail)
    (hnone : notYet g k r f = none) : Assigns (newFlight g k r run f) f (f.accept g k r run t) := by
  have elsewhere {f' : Feed} (h : ∀ st, ¬(newFlight g k r run f).PlacesTo st) (stations : f'.stations = f.stations) :
      Assigns (newFlight g k r run f) f f' :=
    ⟨fun st hst => absurd hst (h st), fun st hst => absurd hst (h st), fun st _ => by rw [stations]⟩
  cases k with
  | travel => exact elsewhere (elsewhere_of_kind (k := .travel) rfl (by decide)) rfl
  | reject => exact elsewhere (elsewhere_of_kind (k := .reject) rfl (by decide)) rfl
  | pick =>
    refine elsewhere (elsewhere_of_kind (k := .pick) rfl (by decide)) ?_
    unfold Feed.accept Feed.acceptOrder
    cases moveOrder g .pick r f <;> rfl
  | place =>
    cases ho : moveOrder g .place r f with
    | none =>
      have hstation : (newFlight g .place r run f).station = none := by simp [newFlight, ho]
      refine elsewhere (fun st hst => by cases hstation.symm.trans hst.2) ?_
      rw [Feed.accept, ho]
      rfl
    | some o =>
      have hstation : (newFlight g .place r run f).station = some o.station := by simp [newFlight, ho]
      have own {st : StationId} (hst : (newFlight g .place r run f).PlacesTo st) : o.station = st :=
        Option.some.inj (hstation.symm.trans hst.2)
      obtain ⟨entry, hentry, hassign⟩ :=
        assign_stations g o ((f.setRail t).modCtx g (·.accepted (newFlight g .place r run f)))
      have hstations : (f.accept g .place r run t).stations = (f.modStation o.station entry).stations := by
        rw [accept_place ho]
        exact hassign
      refine ⟨fun st hst => own hst ▸ empty_of_notYet hnone ho, fun st hst => ?_, fun st hst => ?_⟩
      · obtain rfl := own hst
        rw [hstations, modStation_own]
        exact hentry _
      · have hne : st ≠ o.station := fun he => hst ⟨rfl, he ▸ hstation⟩
        rw [hstations, modStation_apart hne]

theorem stationsLaw_accept {g : Gantry} {k : MoveKind} {r : MoveRec} {f : Feed} (run : Span) (t : Rail)
    (hidle : f.ctx[g].state = .idle) (hnone : notYet g k r f = none) (h : StationsLaw f) :
    StationsLaw (f.accept g k r run t) := by
  let a := (f.setRail t).modCtx g (·.accepted (newFlight g k r run f))
  have ha : (f.accept g k r run t).floor = a.floor := Feed.acceptOrder_floor g k (moveOrder g k r f) a
  have hctx : (f.accept g k r run t).ctx = a.ctx := (Floor.mk.inj ha).2.2.2
  refine stationsLaw_of_accepted hidle ?own ?moving ?apart (assigns_accept run t hnone) h
  case own => rw [hctx, modCtx_own]; rfl
  case moving => rw [hctx, modCtx_own]; rfl
  case apart =>
    rw [hctx, modCtx_apart (other_ne g)]
    exact (setRail_alike t f (other g)).sameMove

theorem stationsLaw_judgeIdle {g : Gantry} {f : Feed} (r : MoveRec) (hidle : f.ctx[g].state = .idle)
    (h : StationsLaw f) : StationsLaw (judgeIdle g r f).1 := by
  unfold judgeIdle
  split
  · exact stationsLaw_haltCtx g _ _ h
  · split
    · exact stationsLaw_haltCtx g _ _ h
    · split
      · exact h
      case h_2 hnone =>
        unfold claimMove
        split
        · exact stationsLaw_accept _ _ hidle hnone h
        · exact stationsLaw_railWait g _ _ h

theorem idle_of_not {x : CtxState} (hhalted : x ≠ .halted) (hmoving : x ≠ .moving) : x = .idle := by
  cases x with
  | idle => rfl
  | moving => exact absurd rfl hmoving
  | halted => exact absurd rfl hhalted

theorem stationsLaw_judgeGood (g : Gantry) (r : MoveRec) {f : Feed} (h : StationsLaw f) :
    StationsLaw (judgeGood g r f).1 := by
  unfold judgeGood
  split_ifs with hhalted _ _ hmoving _
  iterate 5 exact h
  exact stationsLaw_judgeIdle r (idle_of_not hhalted hmoving) h

/-- The judging of a read keeps the law (R29). -/
theorem stationsLaw_judge (g : Gantry) (data : Option (List Word)) {f : Feed} (h : StationsLaw f) :
    StationsLaw (judge g data f).1 := by
  unfold judge
  split
  · unfold judgeBad
    split
    · exact stationsLaw_fault g .memory (stationsLaw_setMemRun g 3 h)
    · exact stationsLaw_setMemRun g _ h
  · exact stationsLaw_judgeGood g _ (stationsLaw_setMemRun g 0 h)

/-! ### Control commands -/

theorem stationsLaw_settleHalt (g : Gantry) (b : Option Nat) {f : Feed} (h : StationsLaw f) :
    StationsLaw (f.settleHalt g b) := by
  have fallen : StationsLaw (f.settleFall g) :=
    stationsLaw_of_floor (Feed.settleFall_floor g f) (Feed.settleFall_stations g f) h
  have close {f : Feed} (h : StationsLaw f) : StationsLaw (f.settleClose g) := by
    unfold Feed.settleClose
    split
    case h_1 hm => exact stationsLaw_closeFlight hm h
    case h_2 => exact h
  have position {f : Feed} (h : StationsLaw f) : StationsLaw (f.settlePos g b) := by
    unfold Feed.settlePos
    split
    · exact stationsLaw_setPos g _ h
    · exact h
  have grip {f : Feed} (h : StationsLaw f) : StationsLaw (f.settleGrip g) := by
    unfold Feed.settleGrip
    split_ifs
    · exact h
    · exact stationsLaw_loseCarry g h
    · exact stationsLaw_setCarry g _ h
    · exact h
  exact grip (position (close fallen))

/-- A cleared halt leaves an IDLE context, whose move the settlement has closed (R125, R127). -/
theorem stationsLaw_clearDone {g : Gantry} {f : Feed} (t : Rail) (hflight : f.ctx[g].flight = none)
    (h : StationsLaw f) : StationsLaw (f.clearDone g t) := by
  have held := stationsLaw_setRail t h
  have hnone : (f.setRail t).ctx[g].flight = none := (setRail_alike t f g).flight.trans hflight
  refine stationsLaw_raise _ _ _ (stationsLaw_of_moves (f := f.setRail t) ?_ ?_ (fun st => ?_) held)
  · exact forall_gantry g (.inl (by rw [modCtx_own]; rfl)) (.inl (by rw [modCtx_apart (other_ne g)]))
  · refine forall_gantry g (fun _ => by rw [modCtx_own]; exact hnone) fun hidle => ?_
    rw [modCtx_apart (other_ne g)] at hidle ⊢
    exact held.idle _ hidle
  · refine .kept rfl (forall_gantry g (placeTo_congr ?_ st) (placeTo_congr ?_ st))
    · rw [modCtx_own]; rfl
    · rw [modCtx_apart (other_ne g)]

theorem stationsLaw_clearHalt (a : Nat) (b : Option Nat) {f : Feed} (h : StationsLaw f) :
    StationsLaw (clearHalt a b f).1 := by
  unfold clearHalt
  split
  case isFalse => exact h
  case isTrue ha =>
    generalize (⟨a, ha.1⟩ : Gantry) = g
    unfold clearHaltOf
    split
    case h_1 => exact h
    case h_2 =>
      obtain ⟨k, own⟩ := settleHalt_own g b f
      have settled := stationsLaw_settleHalt g b h
      unfold Feed.reseatHalt
      split
      · exact stationsLaw_clearDone _ (by rw [own]) settled
      · exact settled
      · exact settled

theorem stationsLaw_orphan (g : Gantry) (why : OrphanWhy) {f : Feed} (h : StationsLaw f) :
    StationsLaw (f.orphan g why) :=
  stationsLaw_raise _ _ _ (stationsLaw_setCarry g _ h)

theorem stationsLaw_cancelOrder (a : Nat) {f : Feed} (h : StationsLaw f) : StationsLaw (cancelOrder a f).1 := by
  have orphan (g : Gantry) {f : Feed} (h : StationsLaw f) : StationsLaw (f.orphanIf g a) := by
    unfold Feed.orphanIf
    split
    · exact stationsLaw_orphan g _ h
    · exact h
  unfold cancelOrder
  split_ifs
  · exact h
  · exact h
  · exact stationsLaw_of_floor (f := (f.orphanIf 0 a).orphanIf 1 a) rfl rfl (orphan 1 (orphan 0 h))

theorem stationsLaw_dropOrders {f : Feed} (h : StationsLaw f) : StationsLaw f.dropOrders := by
  have orphan (g : Gantry) {f : Feed} (h : StationsLaw f) : StationsLaw (f.orphanAny g) := by
    unfold Feed.orphanAny
    split
    · exact stationsLaw_orphan g _ h
    · exact h
  exact orphan 1 (orphan 0 (stationsLaw_of_floor (f := f) rfl rfl h))

/-- RESET_FEED faults stations in the middle of a placement, and keeps the moves in flight (R132, R133). -/
theorem stationsLaw_resetFeed {f : Feed} (h : StationsLaw f) : StationsLaw (resetFeed f) := by
  have station (st : StationId) {f : Feed} (h : StationsLaw f) : StationsLaw (f.resetStation st) := by
    unfold Feed.resetStation
    split
    · exact stationsLaw_faultStation st _ h
    · exact h
  have halt (g : Gantry) {f : Feed} (h : StationsLaw f) : StationsLaw (f.resetCtx g) := by
    unfold Feed.resetCtx
    split
    · exact stationsLaw_haltCtx g _ _ h
    · exact h
  have stations {f : Feed} (h : StationsLaw f) : StationsLaw f.resetStations := by
    rw [resetStations_eq]
    exact station 5 (station 4 (station 3 (station 2 (station 1 (station 0 h)))))
  exact halt 1 (halt 0 (stations (stationsLaw_dropOrders h)))

theorem stationsLaw_unblock {st : StationId} {f : Feed} (unclaimed : ∀ g : Gantry, placeTo f.ctx[g] st = false)
    (h : StationsLaw f) : StationsLaw (f.unblock st) :=
  stationsLaw_modStation unclaimed StState.noConfusion h

/-- An UNBLOCK_STATION is refused while a placement is on its way to the station (R117). -/
theorem stationsLaw_unblockStation (a : Nat) {f : Feed} (h : StationsLaw f) : StationsLaw (unblockStation a f).1 := by
  unfold unblockStation
  split
  case isFalse => exact h
  case isTrue ha =>
    generalize (⟨a, ha.1⟩ : StationId) = st
    split
    case h_2 => exact h
    case h_1 hdone =>
      refine stationsLaw_unblock (fun g => ?_) h
      unfold unblockResult at hdone
      split_ifs at hdone with _ _ hfree
      obtain ⟨h0, h1⟩ := not_or.mp hfree
      rcases gantry_cases g with rfl | rfl
      · exact Bool.eq_false_iff.mpr h0
      · exact Bool.eq_false_iff.mpr h1

/-! ### Saw reports and PRESENT (R101, R102, R113) -/

/-- A feed that is complete leaves a station with no placement on its way (R110). -/
theorem stationsLaw_toGuard {st : StationId} {f : Feed} (hfeeding : f.stations[st].state = .feeding)
    (h : StationsLaw f) : StationsLaw (f.toGuard st) := by
  refine stationsLaw_modStation (h.unclaimed hfeeding (by decide) (by decide)) ?_ h
  split <;> exact StState.noConfusion

theorem stationsLaw_reported (st : StationId) (saw : Saw) {f : Feed} (h : StationsLaw f) :
    StationsLaw (f.reported st saw) := by
  unfold Feed.reported
  split
  case h_1 =>
    split
    case isTrue hloaded =>
      exact stationsLaw_modStation (h.unclaimed hloaded (by decide) (by decide)) (by simp) h
    case isFalse => exact h
  case h_2 =>
    split
    case isTrue hfeeding => exact stationsLaw_toGuard hfeeding.1 h
    case isFalse => exact h
  case h_3 =>
    split
    · exact h
    · exact stationsLaw_faultStation st _ h

theorem stationsLaw_report (st : StationId) (r : ReportRec) {f : Feed} (h : StationsLaw f) :
    StationsLaw (report st r f).1 := by
  unfold report
  split
  · exact h
  · exact stationsLaw_reported st _ (stationsLaw_sameState rfl h)

theorem stationsLaw_presentRisen (st : StationId) {f : Feed} (h : StationsLaw f) : StationsLaw (f.presentRisen st) := by
  unfold Feed.presentRisen
  split
  case h_1 hs => exact stationsLaw_blockStation _ (h.unclaimed hs (by decide) (by decide)) h
  case h_2 hs => exact stationsLaw_blockStation _ (h.unclaimed hs (by decide) (by decide)) h
  case h_3 => exact stationsLaw_sameState rfl h
  case h_4 hs => exact stationsLaw_modStation (h.unclaimed hs (by decide) (by decide)) StState.noConfusion h
  all_goals exact h

theorem stationsLaw_presentFallen (st : StationId) {f : Feed} (h : StationsLaw f) :
    StationsLaw (f.presentFallen st) := by
  unfold Feed.presentFallen
  split
  case h_4 => exact stationsLaw_sameState rfl h
  case h_5 hs => exact stationsLaw_blockStation _ (h.unclaimed hs (by decide) (by decide)) h
  case h_6 hs =>
    split
    · exact stationsLaw_toGuard hs h
    · exact h
  all_goals exact h

/-! ### Start-up -/

/-- With no move in flight and no station ASSIGNED the law holds. -/
theorem stationsLaw_of_start {f : Feed} (flight : ∀ g : Gantry, f.ctx[g].flight = none)
    (state : ∀ st : StationId, f.stations[st].state ≠ .assigned) : StationsLaw f where
  alone g st hg := by cases (placeTo_of_none (flight g) st).symm.trans hg
  placed st hst := absurd hst (state st)
  idle g _ := flight g
  meets g st hg := by cases (placeTo_of_none (flight g) st).symm.trans hg

theorem stationsLaw_powerOn (f : Feed) : StationsLaw f.powerOn :=
  stationsLaw_of_start (fun g => by simp [Feed.powerOn, Ctx.powerOn]) fun st => by simp [Feed.powerOn, Station.powerOn]

theorem sensed_state (raw : Bool) (x : Station) : (x.sensed raw).state ≠ .assigned := by
  cases raw <;> simp [Station.sensed]

theorem stationsLaw_enterRun (c : Settings) (vacRaw : Vector Bool 2) (presentRaw : Vector Bool 6) (f : Feed) :
    StationsLaw (f.enterRun c vacRaw presentRaw) := by
  refine stationsLaw_of_start (fun g => ?_) fun st => ?_
  · rw [enterRun_ctx]
    exact (runCtx_halted ..).2
  · rw [enterRun_stations]
    unfold runStation
    split
    · exact sensed_state _ _
    · exact StState.noConfusion

/-- A reload leaves the stations in their states and the moves in flight (R179, log 19). -/
theorem stationsLaw_reload {f : Feed} (h : StationsLaw f) : StationsLaw f.reload :=
  stationsLaw_of_moves (f := f) (fun _ => .inl rfl) h.idle (fun st => .kept (by simp [Feed.reload]) fun _ => rfl) h

/-! ### Every act -/

/-- Every act on the feed side keeps the law of the stations. -/
theorem stationsLaw_of_act {f f' : Feed} (act : FeedAct f f') (h : StationsLaw f) : StationsLaw f' := by
  cases act with
  | count | clearFlags | enlist | vacRaw | tick => exact stationsLaw_of_floor (f := f) rfl rfl h
  | raise => exact stationsLaw_raise _ _ _ h
  | ackEvents => exact stationsLaw_of_floor (ackEvents_floor ..) (ackEvents_stations ..) h
  | endNotice => exact stationsLaw_of_floor (Feed.endNotice_floor ..) (Feed.endNotice_stations ..) h
  | endEvent => exact stationsLaw_of_floor (Feed.endEvent_floor ..) (Feed.endEvent_stations ..) h
  | complete g r => exact stationsLaw_complete g r h
  | report st r => exact stationsLaw_report st r h
  | judge g data => exact stationsLaw_judge g data h
  | clearHalt a b => exact stationsLaw_clearHalt a b h
  | cancelOrder a => exact stationsLaw_cancelOrder a h
  | unblockStation a => exact stationsLaw_unblockStation a h
  | resetFeed => exact stationsLaw_resetFeed h
  | reload => exact stationsLaw_reload h
  | enterLocked => exact stationsLaw_of_ctx (f := f.powerOn) rfl (fun _ => .of_eq rfl) (stationsLaw_powerOn f)
  | enterRun => exact stationsLaw_enterRun ..
  | powerOn => exact stationsLaw_powerOn f
  | reset => exact (stationsLaw_iff _).mp resetSatisfiesTheLaws.2.2.2.2.2.1
  | vacFall g => exact stationsLaw_vacFallen g (stationsLaw_of_floor (f := f) rfl rfl h)
  | vacRise g => exact stationsLaw_vacRisen g (stationsLaw_of_floor (f := f) rfl rfl h)
  | presentRaw => exact stationsLaw_sameState rfl h
  | presentRise st => exact stationsLaw_presentRisen st (stationsLaw_sameState rfl h)
  | presentFall st => exact stationsLaw_presentFallen st (stationsLaw_sameState rfl h)
  | moveTimeout g => exact stationsLaw_haltCtx g .moveTimeout none h
  | landingTimeout st => exact stationsLaw_faultStation st _ h
  | guardExpiry st _ hguard =>
    exact stationsLaw_modStation (h.unclaimed hguard (by decide) (by decide)) StState.noConfusion h

/-- Settles O59: a step is a chain of acts on the feed side, each of which keeps the law of the stations. -/
theorem everyStepKeepsTheStationLaw : Obligations.EveryStepKeepsTheStationLaw := fun s t hs hstep =>
  have kept := kept_of_step StationsLaw (fun _ _ => stationsLaw_of_act) ((stationsLaw_iff s.feed).mp hs) hstep
  (stationsLaw_iff t.feed).mpr kept

end Sys2Proof.Machine
end

section
/-! SUPPORT. What the saw stations' commands do: reports, PRESENT changes and UNBLOCK_STATION (R100 to R102, R112, R113,
R117). -/

namespace Sys2Proof.Machine

/-! ### A feed that is complete (R110) -/

theorem toGuard_timed {st : StationId} {f : Feed} {now : Time} (hguard : f.cfg.guardTime[st] ≠ 0)
    (hnow : f.time = now) :
    f.toGuard st = f.modStation st fun x => { x with state := .guard, guardStart := some now } := by
  simp only [Feed.toGuard, if_neg hguard, hnow]

theorem toGuard_untimed {st : StationId} {f : Feed} (hguard : f.cfg.guardTime[st] = 0) :
    f.toGuard st = f.modStation st fun x => { x with state := .empty } := by
  simp only [Feed.toGuard, if_pos hguard]

/-! ### Saw reports (R112, R113) -/

/-- A saw's report record takes its effect and is posted with its stamp (R112). -/
theorem exec_reportWrite {s : State} {st : StationId} {tag : MasterTag} {addr : Addr} {ws : List PWord} {f : Feed}
    {stamp : Stamp} (hown : OwnerRecord s tag addr ws (.report st))
    (h : report st (.ofWords (dataOf ws)) s.feed = (f, stamp)) :
    exec (.reportWrite tag addr ws) s =
      .next (s.posts f tag (.report st) addr (stampWords (dataOf ws) 3 stamp.code)) := by
  have htaken : s.unanswered.takeReport st (writeTxn tag addr ws) (dataOf ws) =
      ({ s.unanswered with feed := f }).post (writeTxn tag addr ws) (.report st)
        (stampWords (dataOf ws) 3 stamp.code) false s.boundNow := by
    unfold State.takeReport
    rw [State.unanswered_feed, h]
    rfl
  exact congrArg done ((State.present_owner hown).trans htaken)

theorem report_duplicate {st : StationId} {r : ReportRec} {f : Feed} (h : r.toggle = f.stations[st].reportToggle) :
    report st r f = (f, .duplicate) := if_pos h

theorem report_taken {st : StationId} {r : ReportRec} {f : Feed} (h : r.toggle ≠ f.stations[st].reportToggle) :
    report st r f =
      ((f.modStation st fun x => { x with reportToggle := r.toggle, saw := r.saw }).reported st r.saw, .taken) :=
  if_neg h

theorem reported_busy {st : StationId} {f : Feed} (h : f.stations[st].state = .loaded) :
    f.reported st .busy = f.modStation st fun x => { x with state := .feeding } := if_pos h

theorem reported_busy_idle {st : StationId} {f : Feed} (h : f.stations[st].state ≠ .loaded) :
    f.reported st .busy = f := if_neg h

theorem reported_clear {st : StationId} {f : Feed} (hstate : f.stations[st].state = .feeding)
    (hpresent : f.stations[st].present = false) : f.reported st .clear = f.toGuard st := if_pos ⟨hstate, hpresent⟩

theorem reported_clear_idle {st : StationId} {f : Feed}
    (h : f.stations[st].state ≠ .feeding ∨ f.stations[st].present = true) : f.reported st .clear = f :=
  if_neg fun ⟨hstate, hpresent⟩ => h.elim (absurd hstate) fun hp => by cases hpresent.symm.trans hp

theorem reported_fault {st : StationId} {f : Feed} (h : f.stations[st].state ≠ .fault) :
    f.reported st .fault = f.faultStation st .sawFault := if_neg h

theorem reported_fault_idle {st : StationId} {f : Feed} (h : f.stations[st].state = .fault) :
    f.reported st .fault = f := if_pos h

/-- Settles O29: a duplicate or a report taken, and each saw state by the station's state, which recording the report
leaves as it was. -/
theorem reportWriteActsByTheSawState : Obligations.ReportWriteActsByTheSawState := by
  intro s st tag addr ws r x f guard result hown
  have hentry : f.stations[st] = { x with reportToggle := r.toggle, saw := r.saw } := modStation_own ..
  have hstate : f.stations[st].state = x.state := by rw [hentry]
  have hpresent : f.stations[st].present = x.present := by rw [hentry]
  refine ⟨fun hsame => exec_reportWrite (stamp := .duplicate) hown (report_duplicate hsame), fun hnew => ?taken⟩
  have taken {saw : Saw} {f' : Feed} (hsaw : r.saw = saw) (h : f.reported st saw = f') :
      exec (.reportWrite tag addr ws) s = result f' 1 := by
    refine exec_reportWrite (stamp := .taken) hown ((report_taken hnew).trans ?_)
    rw [← h, ← hsaw]
  rw [← hstate, ← hpresent]
  exact ⟨fun hsaw hloaded => taken hsaw (reported_busy hloaded),
    fun hsaw hne => taken hsaw (reported_busy_idle hne),
    fun hsaw hfeeding habsent hguard =>
      taken hsaw ((reported_clear hfeeding habsent).trans (toGuard_timed hguard rfl)),
    fun hsaw hfeeding habsent hguard =>
      taken hsaw ((reported_clear hfeeding habsent).trans (toGuard_untimed hguard)),
    fun hsaw hidle => taken hsaw (reported_clear_idle hidle),
    fun hsaw hfault => taken hsaw (reported_fault_idle hfault),
    fun hsaw hne => taken hsaw (reported_fault hne)⟩

/-! ### Filtered PRESENT changes (R100 to R102) -/

/-- A change is due when the raw level has stood for the filter time (R100; log 35). -/
theorem presentDue_filtered {s : State} {st : StationId} {t0 : Time} {level : Bool} (hreset : s.resetLow = false)
    (hrun : s.feed.part = .run) (hon : s.feed.stationOn st = true) (hlevel : s.feed.stations[st].present ≠ level)
    (hraw : s.presentRaw[st] = level) (hsince : s.feed.stations[st].presentSince = some t0)
    (hle : s.feed.cfg.filterTime ≤ (s.feed.time - t0).toNat) : s.presentDue st level = true := by
  have hdone : s.feed.filterDone s.feed.stations[st].presentSince = true := by
    rw [hsince]
    exact decide_eq_true hle
  simp only [State.presentDue, live_of_run hreset hrun, hon, bne_iff_ne.mpr hlevel, hraw, hdone, beq_self_eq_true,
    Bool.and_self]

theorem exec_presentRise_due {s : State} {st : StationId} {f : Feed} (hdue : s.presentDue st true = true)
    (h : (s.feed.setPresent st true).presentRisen st = f) :
    exec (.presentRise st) s = .next (settle { s with feed := f }) := by
  rw [← h]
  exact if_pos hdue

theorem exec_presentFall_due {s : State} {st : StationId} {f : Feed} (hdue : s.presentDue st false = true)
    (h : (s.feed.setPresent st false).presentFallen st = f) :
    exec (.presentFall st) s = .next (settle { s with feed := f }) := by
  rw [← h]
  exact if_pos hdue

theorem presentRisen_unexpected {st : StationId} {f : Feed}
    (h : f.stations[st].state = .empty ∨ f.stations[st].state = .guard) :
    f.presentRisen st = f.blockStation st .unexpectedPanel := by
  unfold Feed.presentRisen
  rcases h with h | h <;> rw [h]

theorem presentRisen_assigned {st : StationId} {f : Feed} (h : f.stations[st].state = .assigned) :
    f.presentRisen st = f.modStation st fun x => { x with early := true } := by
  unfold Feed.presentRisen
  rw [h]

theorem presentRisen_landing {st : StationId} {f : Feed} (h : f.stations[st].state = .landing) :
    f.presentRisen st = f.modStation st fun x => { x with state := .loaded, landingStart := none } := by
  unfold Feed.presentRisen
  rw [h]

theorem presentRisen_standing {st : StationId} {f : Feed} (h : f.stations[st].state = .feeding ∨
    f.stations[st].state = .blocked ∨ f.stations[st].state = .fault) : f.presentRisen st = f := by
  unfold Feed.presentRisen
  rcases h with h | h | h <;> rw [h]

theorem presentFallen_assigned {st : StationId} {f : Feed} (h : f.stations[st].state = .assigned) :
    f.presentFallen st = f.modStation st fun x => { x with early := false } := by
  unfold Feed.presentFallen
  rw [h]

theorem presentFallen_loaded {st : StationId} {f : Feed} (h : f.stations[st].state = .loaded) :
    f.presentFallen st = f.blockStation st .removed := by
  unfold Feed.presentFallen
  rw [h]

theorem presentFallen_feeding {st : StationId} {f : Feed} (h : f.stations[st].state = .feeding) :
    f.presentFallen st = if f.stations[st].saw = .clear then f.toGuard st else f := by
  unfold Feed.presentFallen
  rw [h]

theorem presentFallen_standing {st : StationId} {f : Feed}
    (h : f.stations[st].state = .blocked ∨ f.stations[st].state = .fault) : f.presentFallen st = f := by
  unfold Feed.presentFallen
  rcases h with h | h <;> rw [h]

/-- Settles O30: a due change sets the level, which leaves the station's state, and acts by the tables of R101 and
R102. -/
theorem presentChangeActsByTheStationState : Obligations.PresentChangeActsByTheStationState := by
  intro s st t0 level x guard f blocked result hreset hrun hon hlevel hraw hsince hle
  have hdue := presentDue_filtered hreset hrun hon hlevel hraw hsince hle
  have hentry : f.stations[st] = { x with present := level, presentSince := none } := modStation_own ..
  have hstate : f.stations[st].state = x.state := by rw [hentry]
  have hsaw : f.stations[st].saw = x.saw := by rw [hentry]
  rw [← hstate, ← hsaw]
  refine ⟨?rise, ?fall⟩
  case rise =>
    rintro rfl
    have rise {f' : Feed} (h : f.presentRisen st = f') : exec (.presentRise st) s = result f' :=
      exec_presentRise_due hdue h
    exact ⟨fun h => rise (presentRisen_unexpected h), fun h => rise (presentRisen_assigned h),
      fun h => rise (presentRisen_landing h), fun h => rise (presentRisen_standing h)⟩
  case fall =>
    rintro rfl
    have fall {f' : Feed} (h : f.presentFallen st = f') : exec (.presentFall st) s = result f' :=
      exec_presentFall_due hdue h
    have complete (h : f.stations[st].state = .feeding) (hclear : f.stations[st].saw = .clear) :
        f.presentFallen st = f.toGuard st := (presentFallen_feeding h).trans (if_pos hclear)
    exact ⟨fun h => fall (presentFallen_assigned h), fun h => fall (presentFallen_loaded h),
      fun h hclear hguard => fall ((complete h hclear).trans (toGuard_timed hguard rfl)),
      fun h hclear hguard => fall ((complete h hclear).trans (toGuard_untimed hguard)),
      fun h hbusy => fall ((presentFallen_feeding h).trans (if_neg hbusy)),
      fun h => fall (presentFallen_standing h)⟩

/-! ### UNBLOCK_STATION (R117) -/

/-- UNBLOCK_STATION in RUN is its row of the table, on the station in operand A. -/
theorem exec_unblockStation {s : State} {tag : MasterTag} {addr : Addr} {r : ControlRec} {f : Feed} {res : Result}
    (hown : OwnerControl s tag addr) (hrun : s.feed.part = .run) (h : unblockStation r.opA.toNat s.feed = (f, res)) :
    exec (.unblockStation tag addr r) s = .next (s.controls f tag addr 3 r res) := by
  refine exec_control hown ?_ (by decide)
  rw [command_run hrun, ControlFields.ofWords_control, ← h]
  rfl

theorem unblockStation_absent {a : Nat} {f : Feed} (h : f.cfg.stationCount ≤ a) :
    unblockStation a f = (f, .badOperand) := dif_neg fun ha => Nat.not_lt.mpr h ha.2

theorem unblockStation_done {st : StationId} {f : Feed} (hon : st.val < f.cfg.stationCount)
    (h : unblockResult st f = .done) : unblockStation st.val f = (f.unblock st, .done) := by
  unfold unblockStation
  rw [dif_pos ⟨st.isLt, hon⟩]
  simp only [h]

theorem unblockStation_refused {st : StationId} {f : Feed} {res : Result} (hon : st.val < f.cfg.stationCount)
    (h : unblockResult st f = res) (hres : res ≠ .done) : unblockStation st.val f = (f, res) := by
  unfold unblockStation
  rw [dif_pos ⟨st.isLt, hon⟩]
  split
  case h_1 hdone => exact absurd (h.symm.trans hdone) hres
  case h_2 => rw [← h]

/-- Some context has an in-flight PLACE to the station (R117). -/
def Placing (f : Feed) (st : StationId) : Prop :=
  ∃ g : Gantry, ∃ m, f.ctx[g].flight = some m ∧ m.kind = .place ∧ m.station = some st

theorem placing_iff (f : Feed) (st : StationId) :
    Placing f st ↔ placeTo f.ctx[0] st = true ∨ placeTo f.ctx[1] st = true := by
  rw [placeTo_iff, placeTo_iff]
  exact Fin.exists_fin_two

theorem unblockResult_badOperand {st : StationId} {f : Feed} (hblocked : f.stations[st].state ≠ .blocked)
    (hfault : f.stations[st].state ≠ .fault) : unblockResult st f = .badOperand := if_pos ⟨hblocked, hfault⟩

/-- The rows of R117 after the first, for a station in BLOCKED or FAULT. -/
theorem unblockResult_stopped {st : StationId} {f : Feed}
    (h : f.stations[st].state = .blocked ∨ f.stations[st].state = .fault) :
    unblockResult st f =
      if f.stations[st].present then .stillPresent
      else if placeTo f.ctx[0] st ∨ placeTo f.ctx[1] st then .busy
      else if f.stations[st].saw = .fault then .sawFault
      else .done :=
  if_neg fun hno => h.elim hno.1 hno.2

/-- Settles O32: the rows of R117 in their order. -/
theorem unblockStationInRun : Obligations.UnblockStationInRun := by
  intro s tag addr r f a hown hrun _
  refine ⟨fun habsent => exec_unblockStation hown hrun (unblockStation_absent habsent), ?present⟩
  intro st hst hon x placing
  have hplacing : placing ↔ placeTo f.ctx[0] st = true ∨ placeTo f.ctx[1] st = true := placing_iff f st
  have refused {res : Result} (h : unblockResult st f = res) (hres : res ≠ .done) :
      exec (.unblockStation tag addr r) s = .next (s.controls f tag addr 3 r res) :=
    exec_unblockStation hown hrun (by rw [← unblockStation_refused (hst ▸ hon) h hres, hst])
  refine ⟨fun hblocked hfault => refused (unblockResult_badOperand hblocked hfault) (by decide), fun hstopped => ?_⟩
  have htable := unblockResult_stopped hstopped
  refine ⟨fun hpresent => ?stillPresent, fun habsent hplaced => ?busy, fun habsent hfree hsaw => ?sawFault,
    fun habsent hfree hsaw => ?done⟩
  case stillPresent => exact refused (htable.trans (if_pos hpresent)) (by decide)
  all_goals
    replace htable := htable.trans (if_neg (Bool.eq_false_iff.mp habsent))
  case busy => exact refused (htable.trans (if_pos (hplacing.mp hplaced))) (by decide)
  all_goals
    replace htable := htable.trans (if_neg (mt hplacing.mpr hfree))
  case sawFault => exact refused (htable.trans (if_pos hsaw)) (by decide)
  case done =>
    have hdone := unblockStation_done (hst ▸ hon) (htable.trans (if_neg hsaw))
    rw [hst] at hdone
    exact exec_unblockStation hown hrun hdone

end Sys2Proof.Machine
end

section
/-! SUPPORT. The levels of HOLD, ALERT and PERMIT (R114, R123, R168, R173). -/

namespace Sys2Proof.Machine

theorem anyHalted_iff (f : Feed) :
    f.anyHalted = true ↔ ∃ g : Gantry, g.val < f.cfg.gantryCount ∧ f.ctx[g].state = .halted := by
  rw [Fin.exists_fin_two]
  simp only [Feed.anyHalted, Feed.gantryOn, Bool.or_eq_true, Bool.and_eq_true, decide_eq_true_eq]
  rfl

theorem flags_any_iff (k : Flags) : k.any = true ↔ k ≠ .clear := by
  have clear : k.any = false ↔ k = .clear := by
    obtain ⟨a, b, c, d, e, l⟩ := k
    simp only [Flags.any, Flags.clear, Flags.mk.injEq, Bool.or_eq_false_iff, and_assoc]
  rw [← not_iff_not, not_not, Bool.not_eq_true, clear]

/-- Settles O36: each line by the definition of its level. -/
theorem outputLines : Obligations.OutputLines := by
  intro s st
  refine ⟨?hold, ?alert, ?permit⟩
  case hold => simp only [State.holdOut, Feed.hold, Bool.or_eq_true, decide_eq_true_eq, anyHalted_iff]
  case alert =>
    simp only [State.alertOut, Feed.alert, Bool.and_eq_true, Bool.or_eq_true, Bool.not_eq_true', decide_eq_true_eq,
      flags_any_iff]
    rfl
  case permit =>
    simp only [State.permitOut, Feed.stationOn, Bool.and_eq_true, Bool.not_eq_true', decide_eq_true_eq, and_assoc]

end Sys2Proof.Machine
end

section
/-! SUPPORT. The record writer's operation at the memory port: how memory's answer or the latency bound ends it (R116,
R150 to R152, R160). -/

namespace Sys2Proof.Machine

/-! ### The port and memory after an answer -/

theorem endOp_done {o : PortOp} {ws : List PWord} (hop : o.op = .write ws) (ups : List Upset) (s : State) :
    s.endOp o (.done ups) = { s with mem := s.mem.writeWords o.addr ws, bus := { s.bus with port := none } } := by
  unfold State.endOp State.memAfter
  rw [hop]
  rfl

/-- A faulted notice leaves its slot (R116, log 6). -/
theorem endOp_notice_fault {o : PortOp} {ws : List PWord} {st : StationId} (hop : o.op = .write ws)
    (hkind : o.kind = .notice st) (s : State) : s.endOp o .fault = { s with bus := { s.bus with port := none } } := by
  unfold State.endOp State.memAfter
  rw [hop, hkind]
  rfl

/-- A faulted event leaves free words in its slot (R160, log 6). -/
theorem endOp_event_fault {o : PortOp} {ws : List PWord} (hop : o.op = .write ws) (hkind : o.kind = .event)
    (s : State) : s.endOp o .fault = { s with
      mem := s.mem.writeWords o.addr (faultedWords s.openCount ws), openCount := s.openCount + 1,
      bus := { s.bus with port := none } } := by
  unfold State.endOp State.memAfter
  rw [hop, hkind]
  rfl

/-- Free words lie within the slot of the write that faulted. -/
theorem readByte_faultedWords_out (m : Memory) (addr count : Nat) (ws : List PWord) {x : Nat}
    (h : x < addr ∨ addr + 4 * ws.length ≤ x) :
    (m.writeWords addr (faultedWords count ws)).readByte x = m.readByte x := by
  have hlength : (faultedWords count ws).length = ws.length := List.length_mapIdx
  exact m.readByte_writeWords_out addr _ (hlength.symm ▸ h)

/-! ### Memory's answer to a record write -/

/-- A notice write answered before its bound has ended, whatever its answer (R116). -/
theorem exec_noticeWriteAnswer_live {s : State} {o : PortOp} {st : StationId} (a : MemAnswer)
    (hport : s.bus.port = some o) (hkind : o.kind = .notice st) (hlive : o.discard = false) :
    exec (.noticeWriteAnswer a) s = done ((s.endOp o a).onFeed (Feed.endNotice st (MemAnswer.isFault a))) := by
  have hafter (u : State) : State.afterNotice a o u = u.onFeed (Feed.endNotice st (MemAnswer.isFault a)) := by
    unfold State.afterNotice
    rw [hkind]
  exact congrArg done ((State.answered_live hport (by rw [hkind]; rfl) hlive).trans (hafter _))

theorem exec_noticeWriteAnswer_late {s : State} {o : PortOp} {st : StationId} (a : MemAnswer)
    (hport : s.bus.port = some o) (hkind : o.kind = .notice st) (hlate : o.discard = true) :
    exec (.noticeWriteAnswer a) s = done (s.endOp o a) :=
  congrArg done (State.answered_late hport (by rw [hkind]; rfl) hlate)

/-- An event write answered before its bound has ended, whatever its answer (R160). -/
theorem exec_eventWriteAnswer_live {s : State} {o : PortOp} (a : MemAnswer) (hport : s.bus.port = some o)
    (hkind : o.kind = .event) (hlive : o.discard = false) :
    exec (.eventWriteAnswer a) s = done ((s.endOp o a).onFeed (Feed.endEvent (MemAnswer.isFault a))) :=
  congrArg done (State.answered_live (p := (· == .event)) hport (by rw [hkind]; rfl) hlive)

theorem exec_eventWriteAnswer_late {s : State} {o : PortOp} (a : MemAnswer) (hport : s.bus.port = some o)
    (hkind : o.kind = .event) (hlate : o.discard = true) : exec (.eventWriteAnswer a) s = done (s.endOp o a) :=
  congrArg done (State.answered_late hport (by rw [hkind]; rfl) hlate)

/-! ### The event at the front of the queue (R160) -/

theorem endEvent_written {f : Feed} {e : Event} {rest : List Event} (h : f.events = e :: rest) :
    f.endEvent false = { f with events := rest, prod := (f.prod + 1) % 2 ^ f.cfg.ringLog } := by
  unfold Feed.endEvent
  rw [h]
  rfl

/-- A lost event is counted, and reported by an event unless it was such a report itself (R160). -/
theorem endEvent_lost {f : Feed} {e : Event} {rest : List Event} (h : f.events = e :: rest) :
    f.endEvent true =
      if e.code = .memoryFault then ({ f with events := rest } : Feed).count .memFault
      else ({ f with events := rest } : Feed).memFault ownSubject .event := by
  unfold Feed.endEvent
  rw [h]
  rfl

/-! ### The bound of a record write (R151, R152) -/

/-- The operation in progress stays at the port, its answer to be discarded (R151). -/
theorem discardOp_eq {s : State} {o : PortOp} {p : OpKind → Bool} (hport : s.bus.port = some o)
    (hp : p o.kind = true) :
    s.discardOp p = { s with bus := { s.bus with port := some { o with discard := true } } } := by
  simp only [State.discardOp, hport, Option.map_some, hp, if_true]

/-- At the bound a record write ends as a FAULT does (R152). -/
theorem exec_recordWriteTimeout {s : State} {o : PortOp} {us : Nat} {h : Feed → Feed} (hport : s.bus.port = some o)
    (hlive : o.discard = false) (hbound : s.boundNow ≤ us)
    (hend : (∃ st, o.kind = .notice st ∧ h = Feed.endNotice st true) ∨ (o.kind = .event ∧ h = Feed.endEvent true)) :
    exec (.recordWriteTimeout us) s = .next (settle { s with
      feed := h s.feed, bus := { s.bus with port := some { o with discard := true } } }) := by
  have hrecord : o.kind.isRecord = true := by
    rcases hend with ⟨st, hkind, -⟩ | ⟨hkind, -⟩ <;> rw [hkind] <;> rfl
  have hop : s.opOf OpKind.isRecord = some o := by
    unfold State.opOf
    rw [hport]
    exact if_pos hrecord
  have hrun : ¬(o.discard || decide (us < s.boundNow)) = true := by simp [hlive, hbound]
  have hexpire : s.expireRecord us = (s.discardOp OpKind.isRecord).onFeed h := by
    unfold State.expireRecord
    rw [hop]
    rcases hend with ⟨st, hkind, rfl⟩ | ⟨hkind, rfl⟩ <;> simp only [if_neg hrun, hkind]
  rw [discardOp_eq hport hrecord] at hexpire
  exact congrArg done hexpire

/-- Settles O43: the live answers, the bound, and the answers that come after it. -/
theorem recordWritesEndByAnswerOrBound : Obligations.RecordWritesEndByAnswerOrBound := by
  intro s o us ups ws f next expired freed hport hop
  have hfreed {f' : Feed} (hexec : exec (.eventWriteAnswer .fault) s = .next (settle { s with
      feed := f', mem := s.mem.writeWords o.addr (faultedWords s.openCount ws), openCount := s.openCount + 1,
      bus := { s.bus with port := none } })) : freed f' :=
    ⟨_, _, hexec, fun _ hx => readByte_faultedWords_out s.mem o.addr s.openCount ws hx⟩
  refine ⟨fun st hkind hlive => ?notice, fun e rest hkind hlive hevents => ?event, fun st hkind hlate => ?lateNotice,
    fun hkind hlate => ?lateEvent⟩
  case notice =>
    intro ended faulted
    refine ⟨?_, ?_, fun hbound => exec_recordWriteTimeout hport hlive hbound (.inl ⟨st, hkind, rfl⟩)⟩
    · rw [exec_noticeWriteAnswer_live _ hport hkind hlive, endOp_done hop]
      rfl
    · rw [exec_noticeWriteAnswer_live _ hport hkind hlive, endOp_notice_fault hop hkind]
      rfl
  case event =>
    intro ended faulted
    have hlost : f.endEvent true = faulted := endEvent_lost hevents
    refine ⟨?_, hfreed ?_, fun hbound => ?_⟩
    · rw [exec_eventWriteAnswer_live _ hport hkind hlive, endOp_done hop]
      exact congrArg (fun f' => next f' (s.mem.writeWords o.addr ws)) (endEvent_written hevents)
    · rw [exec_eventWriteAnswer_live _ hport hkind hlive, endOp_event_fault hop hkind, ← hlost]
      rfl
    · rw [exec_recordWriteTimeout hport hlive hbound (.inr ⟨hkind, rfl⟩)]
      exact congrArg expired hlost
  case lateNotice =>
    refine ⟨?_, ?_⟩
    · rw [exec_noticeWriteAnswer_late _ hport hkind hlate, endOp_done hop]
      rfl
    · rw [exec_noticeWriteAnswer_late _ hport hkind hlate, endOp_notice_fault hop hkind]
      rfl
  case lateEvent =>
    refine ⟨?_, hfreed ?_⟩
    · rw [exec_eventWriteAnswer_late _ hport hkind hlate, endOp_done hop]
      rfl
    · rw [exec_eventWriteAnswer_late _ hport hkind hlate, endOp_event_fault hop hkind]
      rfl

end Sys2Proof.Machine
end

section
/-! SUPPORT. Halts and further faults (R121, R122), and CLEAR_HALT: its refusals, its settlement step by step, and the
reseat (R124 to R128). -/

namespace Sys2Proof.Machine

/-! ### A change of one context -/

/-- A change of a context is what it makes of the context that stands. -/
theorem modCtx_congr {g : Gantry} {k k' : Ctx → Ctx} {f : Feed} (h : k f.ctx[g] = k' f.ctx[g]) :
    f.modCtx g k = f.modCtx g k' := by
  rw [Feed.modCtx, Feed.modCtx, h]

theorem modCtx_standing {g : Gantry} {k : Ctx → Ctx} {f : Feed} (h : k f.ctx[g] = f.ctx[g]) : f.modCtx g k = f := by
  have hset : f.ctx.set g f.ctx[g] = f.ctx := Vector.set_getElem_self ..
  rw [Feed.modCtx, h, hset]

/-! ### Halts and further faults (R121, R122) -/

/-- The freeze of a halt finds the wait record emptied, with no blocked-by-other flag to clear (R47, R121). -/
theorem haltCtx_ctx (g : Gantry) (why : HaltReason) (sub : Option BadMove) (f : Feed) :
    (f.haltCtx g why sub).ctx[g] = f.ctx[g].halted why sub f.time := by
  have hflag : (f.ctx[g].halted why sub f.time).unblocked = f.ctx[g].halted why sub f.time := rfl
  rw [Feed.haltCtx, Feed.raise_ctx, setRail_own, modCtx_own, hflag, ite_self]

theorem furtherFault_counted {g : Gantry} {f : Feed} {h : HaltRec} (hhalt : f.ctx[g].halt = some h)
    (why : HaltReason) : f.furtherFault g why =
      (f.modCtx g fun c => { c with halt := some { h with further := min (h.further + 1) 255 } }).raise
        .furtherFault g.val why.code := by
  have hmore : f.ctx[g].halt.map HaltRec.more = some { h with further := min (h.further + 1) 255 } := by
    rw [hhalt]
    rfl
  exact congrArg (Feed.raise .furtherFault g.val why.code) (modCtx_congr (by rw [hmore]))

/-- Settles O33: a halt is its definition, and its freeze leaves its own context; a further fault is counted in the
record that stands. -/
theorem haltAndFurtherFault : Obligations.HaltAndFurtherFault := fun f g why sub =>
  ⟨rfl, haltCtx_ctx g why sub f, fun _ hhalt => furtherFault_counted hhalt why⟩

/-! ### CLEAR_HALT at the mailbox (R124) -/

/-- Operand B of a CLEAR_HALT: the position given, if one is (R124). -/
def positionGiven (r : ControlRec) : Option Nat := if r.bGiven then some r.opB.toNat else none

theorem positionGiven_some {r : ControlRec} (h : r.bGiven = true) : positionGiven r = some r.opB.toNat := if_pos h

theorem positionGiven_none {r : ControlRec} (h : r.bGiven = false) : positionGiven r = none :=
  if_neg (Bool.eq_false_iff.mp h)

/-- CLEAR_HALT in RUN is its row of the table, on the gantry in operand A and the position in operand B. -/
theorem exec_clearHalt {s : State} {tag : MasterTag} {addr : Addr} {r : ControlRec} {f : Feed} {res : Result}
    (hown : OwnerControl s tag addr) (hrun : s.feed.part = .run)
    (h : clearHalt r.opA.toNat (positionGiven r) s.feed = (f, res)) :
    exec (.clearHalt tag addr r) s = .next (s.controls f tag addr 1 r res) := by
  refine exec_control hown ?_ (by decide)
  rw [command_run hrun, ControlFields.ofWords_control, ← h]
  rfl

theorem clearHalt_absent {a : Nat} {f : Feed} (h : f.cfg.gantryCount ≤ a) (b : Option Nat) :
    clearHalt a b f = (f, .badOperand) := dif_neg fun ha => Nat.not_lt.mpr h ha.2

theorem clearHalt_enabled {g : Gantry} {f : Feed} (hon : g.val < f.cfg.gantryCount) (b : Option Nat) :
    clearHalt g.val b f = clearHaltOf g b f := dif_pos ⟨g.isLt, hon⟩

theorem clearHaltOf_refused {g : Gantry} {b : Option Nat} {f : Feed} {res : Result}
    (h : clearRefusal g b f = some res) : clearHaltOf g b f = (f, res) := by
  unfold clearHaltOf
  rw [h]

theorem clearHaltOf_settled {g : Gantry} {b : Option Nat} {f : Feed} (h : clearRefusal g b f = none) :
    clearHaltOf g b f = (f.settleHalt g b).reseatHalt g := by
  unfold clearHaltOf
  rw [h]

theorem clearRefusal_notHalted {g : Gantry} {f : Feed} (h : f.ctx[g].state ≠ .halted) (b : Option Nat) :
    clearRefusal g b f = some .notHalted := if_pos h

/-- The rows of R124 on a HALTED context, without a position given. -/
theorem clearRefusal_absent {g : Gantry} {f : Feed} (h : f.ctx[g].state = .halted) :
    clearRefusal g none f =
      if f.ctx[g].pos = none ∨ f.ctx[g].flight.isSome = true then some .needPosition else none :=
  if_neg (not_not.mpr h)

/-- The rows of R124 on a HALTED context, with a position given. -/
theorem clearRefusal_given {g : Gantry} {f : Feed} (h : f.ctx[g].state = .halted) (p : Nat) :
    clearRefusal g (some p) f = if f.cfg.railLen ≤ p then some .badOperand else none :=
  if_neg (not_not.mpr h)

/-- A CLEAR_HALT that passes the tests of R124 has its position: the one given, or the one known with no move in
flight. -/
theorem clearRefusal_passed {g : Gantry} {r : ControlRec} {f : Feed} {q : Nat} (h : f.ctx[g].state = .halted)
    (hq : (r.bGiven = true ∧ r.opB.toNat < f.cfg.railLen ∧ q = r.opB.toNat) ∨
      (r.bGiven = false ∧ f.ctx[g].pos = some q ∧ f.ctx[g].flight = none)) :
    clearRefusal g (positionGiven r) f = none ∧ (positionGiven r).or f.ctx[g].pos = some q := by
  rcases hq with ⟨hgiven, hrail, rfl⟩ | ⟨habsent, hpos, hflight⟩
  · rw [positionGiven_some hgiven]
    exact ⟨(clearRefusal_given h _).trans (if_neg (Nat.not_le.mpr hrail)), rfl⟩
  · rw [positionGiven_none habsent]
    exact ⟨(clearRefusal_absent h).trans (if_neg (by rw [hpos, hflight]; simp)), hpos⟩

/-! ### What the settlement leaves of the grip's filter -/

@[simp] theorem Feed.lostPanel_vac (tag : Nat) (f : Feed) : (f.lostPanel tag).vac = f.vac := by
  unfold Feed.lostPanel Feed.faultOrder
  split <;> [(split <;> [exact Feed.raise_vac ..; rfl]); rfl]

theorem Feed.onOrder_vac {h : Nat → Feed → Feed} (hh : ∀ tag f, (h tag f).vac = f.vac) (k : Option Carry)
    (f : Feed) : (f.onOrder k h).vac = f.vac := by
  unfold Feed.onOrder
  split <;> [exact hh _ f; rfl]

@[simp] theorem Feed.lowerOut_vac (tag : Nat) (f : Feed) : (f.lowerOut tag).vac = f.vac := rfl

@[simp] theorem Feed.deliveryUnknown_vac (st : StationId) (f : Feed) : (f.deliveryUnknown st).vac = f.vac := by
  unfold Feed.deliveryUnknown
  split <;> [exact Feed.raise_vac ..; rfl]

@[simp] theorem closeStation_vac (m : Flight) (f : Feed) : (closeStation m f).vac = f.vac := by
  unfold closeStation
  split <;> simp only [Feed.deliveryUnknown_vac]

@[simp] theorem closeOrder_vac (m : Flight) (vac : Bool) (k : Option Carry) (f : Feed) :
    (closeOrder m vac k f).vac = f.vac := by
  unfold closeOrder
  split
  case isTrue => rfl
  case isFalse =>
    split
    · rfl
    · rfl
    · exact Feed.onOrder_vac Feed.lostPanel_vac ..
    · exact Feed.onOrder_vac Feed.lowerOut_vac ..

@[simp] theorem Feed.settleClose_vac (g : Gantry) (f : Feed) : (f.settleClose g).vac = f.vac := by
  unfold Feed.settleClose
  split
  case h_1 m _ => exact (closeOrder_vac ..).trans (closeStation_vac m f)
  case h_2 => rfl

@[simp] theorem Feed.settlePos_vac (g : Gantry) (b : Option Nat) (f : Feed) : (f.settlePos g b).vac = f.vac := by
  unfold Feed.settlePos
  split <;> rfl

@[simp] theorem Feed.settleGrip_vac (g : Gantry) (f : Feed) : (f.settleGrip g).vac = f.vac := by
  unfold Feed.settleGrip
  split_ifs
  · rfl
  · exact Feed.onOrder_vac Feed.lostPanel_vac ..
  · rfl
  · rfl

/-- Of the grip's filter the settlement takes a fall that is due, and no more (R128). -/
theorem settleHalt_vac (g : Gantry) (b : Option Nat) (f : Feed) : (f.settleHalt g b).vac = (f.settleFall g).vac := by
  simp only [Feed.settleHalt, Feed.settleGrip_vac, Feed.settlePos_vac, Feed.settleClose_vac]

/-! ### The settlement, step by step (R125, R128) -/

theorem settleFall_due {g : Gantry} {f : Feed} (h : f.fallDue g = true) :
    f.settleFall g = { f with vac := f.vac.set g ⟨false, none⟩ } := if_pos h

theorem settleFall_standing {g : Gantry} {f : Feed} (h : ¬f.fallDue g = true) : f.settleFall g = f := if_neg h

theorem settleClose_flight {g : Gantry} {f : Feed} {m : Flight} (h : f.ctx[g].flight = some m) :
    f.settleClose g = f.closeFlight g m := by
  unfold Feed.settleClose
  rw [h]

theorem settleClose_none {g : Gantry} {f : Feed} (h : f.ctx[g].flight = none) : f.settleClose g = f := by
  unfold Feed.settleClose
  rw [h]

/-- The position given, or else the one known, is the position (R125). -/
theorem settlePos_eq {g : Gantry} {b : Option Nat} {f : Feed} {q : Nat} (h : b.or f.ctx[g].pos = some q) :
    f.settlePos g b = f.modCtx g fun c => { c with pos := some q } := by
  cases b with
  | some p =>
    cases h
    rfl
  | none => exact (modCtx_standing (by rw [← h]; rfl)).symm

theorem settleGrip_found {g : Gantry} {f : Feed} (hcarry : f.ctx[g].carry = none) (hvac : f.vac[g].level = true) :
    f.settleGrip g = f.modCtx g fun c => { c with carry := some ⟨0, f.cfg.cmax, .unknown⟩ } :=
  (if_neg (by rw [hcarry]; exact Bool.false_ne_true)).trans (if_pos hvac)

theorem settleGrip_lost {g : Gantry} {f : Feed} (hcarry : f.ctx[g].carry.isSome = true)
    (hvac : f.vac[g].level = false) :
    f.settleGrip g = (f.setCarry g none).onOrder f.ctx[g].carry Feed.lostPanel :=
  (if_pos hcarry).trans (if_neg (Bool.eq_false_iff.mp hvac))

theorem settleGrip_agreed {g : Gantry} {f : Feed} (h : f.ctx[g].carry.isSome = f.vac[g].level) :
    f.settleGrip g = f := by
  unfold Feed.settleGrip Feed.vacOf
  rw [h]
  split_ifs <;> rfl

/-- An ORDER carry is a carry. -/
theorem isSome_of_orderTag {k : Option Carry} {tag : Nat} (h : orderTag k = some tag) : k.isSome = true := by
  cases k with
  | some => rfl
  | none => cases h

/-- After the grip step the carry agrees with the grip (R125, R128). -/
theorem settleGrip_agrees (g : Gantry) (f : Feed) : (f.settleGrip g).ctx[g].carry.isSome = f.vac[g].level := by
  by_cases h : f.ctx[g].carry.isSome = f.vac[g].level
  case pos => rw [settleGrip_agreed h, h]
  case neg =>
    cases hvac : f.vac[g].level with
    | true =>
      rw [hvac] at h
      have hcarry : f.ctx[g].carry = none := Option.not_isSome_iff_eq_none.mp h
      rw [settleGrip_found hcarry hvac, modCtx_own]
      rfl
    | false =>
      have hcarry : f.ctx[g].carry.isSome = true := by rwa [hvac, Bool.not_eq_false] at h
      have hctx := (Floor.mk.inj (Feed.onOrder_floor Feed.lostPanel_floor f.ctx[g].carry (f.setCarry g none))).2.2.2
      rw [settleGrip_lost hcarry hvac, hctx, Feed.setCarry, modCtx_own]
      rfl

theorem settleHalt_of_steps {g : Gantry} {b : Option Nat} {f f0 f1 f2 f3 : Feed} (hfall : f.settleFall g = f0)
    (hclose : f0.settleClose g = f1) (hpos : f1.settlePos g b = f2) (hgrip : f2.settleGrip g = f3) :
    f.settleHalt g b = f3 := by
  rw [Feed.settleHalt, hfall, hclose, hpos, hgrip]

theorem settleHalt_agrees (g : Gantry) (b : Option Nat) (f : Feed) :
    (f.settleHalt g b).ctx[g].carry.isSome = (f.settleFall g).vac[g].level := by
  rw [Feed.settleHalt, settleGrip_agrees, Feed.settlePos_vac, Feed.settleClose_vac]

/-- A fall that is due is taken by the settlement, which leaves the gantry empty and its level low (R128, row 1;
log 36). -/
theorem settleHalt_fallDue {g : Gantry} {f : Feed} (h : f.fallDue g = true) (b : Option Nat) :
    (f.settleHalt g b).ctx[g].carry = none ∧ (f.settleHalt g b).vac[g].level = false := by
  have hvac : (f.settleFall g).vac[g].level = false := by simp [settleFall_due h]
  have hcarry : (f.settleHalt g b).ctx[g].carry.isSome = false := (settleHalt_agrees g b f).trans hvac
  exact ⟨Option.not_isSome_iff_eq_none.mp (Bool.eq_false_iff.mp hcarry), by rw [settleHalt_vac]; exact hvac⟩

/-! ### The reseat (R126, R127) -/

theorem reseatHalt_conflict {g : Gantry} {f : Feed} (h : reseat f.rail g (reseatSpan g f) = .conflict) :
    f.reseatHalt g = (f, .conflict) := by
  unfold Feed.reseatHalt
  rw [h]

theorem reseatHalt_crossed {g : Gantry} {f : Feed} (h : reseat f.rail g (reseatSpan g f) = .crossed) :
    f.reseatHalt g = (f, .crossed) := by
  unfold Feed.reseatHalt
  rw [h]

theorem reseatHalt_granted {g : Gantry} {f : Feed} {t : Rail} {h : HaltRec} (hhalt : f.ctx[g].halt = some h)
    (hgrant : reseat f.rail g (reseatSpan g f) = .granted t) :
    f.reseatHalt g = (((f.setRail t).modCtx g fun c => { c with state := .idle, halt := none, memRun := 0 }).raise
      .haltCleared g.val h.reason.code, .done) := by
  have hcode : haltCode f.ctx[g] = h.reason.code := by rw [haltCode, hhalt]; rfl
  unfold Feed.reseatHalt
  rw [hgrant, ← hcode]
  rfl

/-- The reseat is for the occupancy at the position given or known, with the carry the settlement left (R126). -/
theorem reseatSpan_settled {g : Gantry} {b : Option Nat} {f : Feed} {q : Nat} (h : b.or f.ctx[g].pos = some q) :
    reseatSpan g (f.settleHalt g b) = f.cfg.occupancy q (f.settleHalt g b).ctx[g].carry := by
  obtain ⟨_, hown⟩ := settleHalt_own g b f
  have hpos : (f.settleHalt g b).ctx[g].pos = some q := by rw [hown, ← h]
  rw [reseatSpan, hpos, (aside_settleHalt g b f).cfg, Option.getD_some]

theorem settleHalt_halt (g : Gantry) (b : Option Nat) (f : Feed) :
    (f.settleHalt g b).ctx[g].halt = f.ctx[g].halt := by
  obtain ⟨_, hown⟩ := settleHalt_own g b f
  rw [hown]

/-- Settles O34: the rows of R124 in their order, then the settlement step by step, then the answer to the reseat. -/
theorem clearHaltInRun : Obligations.ClearHaltInRun := by
  intro s tag addr r f a p result hown hrun _
  have row {f' : Feed} {res : Result} (h : clearHalt a (positionGiven r) f = (f', res)) :
      exec (.clearHalt tag addr r) s = result f' res := exec_clearHalt hown hrun h
  refine ⟨fun habsent => row (clearHalt_absent habsent _), ?enabled⟩
  intro g hg hon c
  have hnamed : clearHalt a (positionGiven r) f = clearHaltOf g (positionGiven r) f :=
    hg ▸ clearHalt_enabled (hg ▸ hon) _
  have refused {res : Result} (h : clearRefusal g (positionGiven r) f = some res) :
      exec (.clearHalt tag addr r) s = result f res := row (hnamed.trans (clearHaltOf_refused h))
  refine ⟨fun hstate => refused (clearRefusal_notHalted hstate _), fun hhalted habsent hneed => ?needPosition,
    fun hhalted hgiven hoff => ?badOperand, ?settled⟩
  case needPosition =>
    rw [positionGiven_none habsent] at refused
    exact refused ((clearRefusal_absent hhalted).trans (if_pos hneed))
  case badOperand =>
    rw [positionGiven_some hgiven] at refused
    exact refused ((clearRefusal_given hhalted p).trans (if_pos hoff))
  case settled =>
    intro fallDue f0 f1 f2 f3 q hhalted hfall hq hclose hposition hgrip span
    have hdue : f.fallDue g = true ↔ fallDue := Feed.fallDue_iff g f
    obtain ⟨hpasses, hpos⟩ := clearRefusal_passed (g := g) (f := f) hhalted hq
    have hfallen : f.settleFall g = f0 := by
      rcases hfall with ⟨hyes, rfl⟩ | ⟨hno, rfl⟩
      · exact settleFall_due (hdue.mpr hyes)
      · exact settleFall_standing (mt hdue.mp hno)
    have hctx : f0.ctx = f.ctx := hfallen ▸ Feed.settleFall_ctx g f
    have hcfg : f0.cfg = f.cfg := hfallen ▸ Feed.settleFall_cfg g f
    have hclosed : f0.settleClose g = f1 := by
      rcases hclose with ⟨hflight, rfl⟩ | ⟨m, hflight, rfl⟩
      · exact settleClose_none (by rw [hctx]; exact hflight)
      · exact settleClose_flight (by rw [hctx]; exact hflight)
    have hplaced : f1.settlePos g (positionGiven r) = f2 := by
      obtain ⟨_, hown⟩ := settleClose_own g f0
      rw [hclosed, hctx] at hown
      rw [hposition]
      exact settlePos_eq (by rw [hown]; exact hpos)
    have hgripped : f2.settleGrip g = f3 := by
      have hvac : f2.vac[g].level = f0.vac[g].level := by
        rw [← hplaced, ← hclosed, Feed.settlePos_vac, Feed.settleClose_vac]
      have hcfg2 : f2.cfg = f.cfg := by
        rw [← hcfg, ← (aside_settleClose g f0).cfg, hclosed, hposition, Feed.modCtx_cfg]
      rcases hgrip with ⟨hcarry, hlevel, rfl⟩ | ⟨x, htag, hlevel, rfl⟩ | ⟨hcarry, htag, hlevel, rfl⟩ |
        ⟨hagree, rfl⟩
      · rw [settleGrip_found hcarry (hvac.trans hlevel), hcfg2]
      · exact (settleGrip_lost (isSome_of_orderTag htag) (hvac.trans hlevel)).trans (onOrder_some htag ..)
      · exact (settleGrip_lost hcarry (hvac.trans hlevel)).trans (onOrder_none htag ..)
      · exact settleGrip_agreed (hagree.trans hvac.symm)
    have hsettled : f.settleHalt g (positionGiven r) = f3 := settleHalt_of_steps hfallen hclosed hplaced hgripped
    have hspan : reseatSpan g f3 = span := by
      have h := reseatSpan_settled (g := g) (f := f) hpos
      rwa [hsettled] at h
    have answered {out : Feed × Result} (h : f3.reseatHalt g = out) :
        exec (.clearHalt tag addr r) s = result out.1 out.2 :=
      row (hnamed.trans ((clearHaltOf_settled hpasses).trans (hsettled ▸ h)))
    rw [← hspan]
    refine ⟨fun hyes => hsettled ▸ settleHalt_fallDue (hdue.mpr hyes) _, fun h => answered (reseatHalt_conflict h),
      fun h => answered (reseatHalt_crossed h), fun t record hgrant hhalt => answered (reseatHalt_granted ?_ hgrant)⟩
    rw [← hsettled, settleHalt_halt]
    exact hhalt

end Sys2Proof.Machine
end

section
/-! SUPPORT. The commands that present a transaction, the tests of the upstream port in their order and what each refusal
changes, and what the port holds, keeps waiting or retries (R138 to R143, R147, R149, R154). -/

namespace Sys2Proof.Machine

/-- Settles O3: each of the commands is the presentation of its transaction (log 12). -/
theorem transactionCommandsPresentTheirTransaction : Obligations.TransactionCommandsPresentTheirTransaction :=
  fun _ _ _ _ _ _ _ => ⟨rfl, rfl, rfl, rfl, rfl, rfl, rfl, rfl, rfl, rfl, rfl, rfl, rfl⟩

/-- A transaction presented to a free port is carried out as it is routed (R142). -/
theorem exec_forwardRaw_free {s : State} {t : Txn} {r : Route} (hfree : PortFree s) (hroute : s.route t = r) :
    exec (.forwardRaw t) s = done (s.unanswered.carry t r) :=
  congrArg done ((State.present_free hfree t).trans (by rw [hroute]))

/-! ### The first two tests (R138, R140) -/

theorem route_addrParity {s : State} {t : Txn} (hparity : t.addrParityOk = false) : s.route t = .addrParity := by
  unfold State.route
  rw [hparity]
  rfl

theorem breaksAlign_iff (s : State) (t : Txn) : s.breaksAlign t = true ↔
    t.addr.toNat % 4 ≠ 0 ∨ 2 ^ 24 < t.addr.toNat + 4 * t.op.len ∨
      ∃ i < t.op.len, s.areaAt (t.addr.toNat + 4 * i) ≠ s.areaAt t.addr.toNat := by
  have hwords : ((s.wordAreas t).all fun a => decide (a = s.areaAt t.addr.toNat)) = true ↔
      ∀ i < t.op.len, s.areaAt (t.addr.toNat + 4 * i) = s.areaAt t.addr.toNat := by
    simp only [State.wordAreas, List.all_eq_true, List.forall_mem_map, List.mem_range, decide_eq_true_eq]
  have hapart : (!(s.wordAreas t).all fun a => decide (a = s.areaAt t.addr.toNat)) = true ↔
      ∃ i < t.op.len, s.areaAt (t.addr.toNat + 4 * i) ≠ s.areaAt t.addr.toNat := by
    rw [Bool.not_eq_true', ← Bool.not_eq_true, hwords]
    simp only [not_forall, exists_prop, ne_eq]
  unfold State.breaksAlign
  rw [Bool.or_eq_true, Bool.or_eq_true, decide_eq_true_eq, decide_eq_true_eq, hapart, or_assoc]

theorem route_broken {s : State} {t : Txn} (hparity : t.addrParityOk = true) (hbroken : s.breaksAlign t = true) :
    s.route t = .align (s.alignArea t) := by
  unfold State.route
  rw [hparity, hbroken]
  rfl

/-- A search of the numbers below n finds what stands at the first of them where something stands. -/
theorem findSome?_range_eq_some {α : Type} {f : Nat → Option α} {n i : Nat} {a : α} (hi : i < n) (hfound : f i = some a)
    (hbefore : ∀ j < i, f j = none) : (List.range n).findSome? f = some a := by
  obtain ⟨k, rfl⟩ := Nat.exists_eq_add_of_lt hi
  have hnone : (List.range i).findSome? f = none :=
    List.findSome?_eq_none_iff.mpr fun j hj => hbefore j (List.mem_range.mp hj)
  rw [Nat.add_assoc, List.range_add, List.findSome?_append, hnone, Option.none_or, List.range_succ_eq_map,
    List.map_cons, List.findSome?_cons, Nat.add_zero, hfound]

/-- An ALIGN refusal concerns the area of the first word that lies in one (R140). -/
theorem alignArea_eq (s : State) (t : Txn) :
    s.alignArea t = (List.range t.op.len).findSome? fun i => s.areaAt (t.addr.toNat + 4 * i) := by
  unfold State.alignArea State.wordAreas
  rw [List.findSome?_map, Function.id_comp]

/-! ### The tests of a WRITE in one area (R141, R142) -/

/-- Of the areas with a write owner, the settings image alone takes a burst of any size (R141). -/
theorem sized_of_owner {s : State} {a : Area} {tag : MasterTag} (h : s.owner a = some tag) :
    a.sized = true ↔ a ≠ .settings := by
  cases a <;> simp [Area.sized, State.owner] at h ⊢

theorem routeWrite_partOwned {s : State} {a : Area} (howner : s.owner a = none) (t : Txn) (ws : List PWord) :
    s.routeWrite t a ws = .refuse .partOwned a := by
  unfold State.routeWrite
  rw [howner]

theorem routeWrite_tag {s : State} {t : Txn} {a : Area} {tag : MasterTag} (howner : s.owner a = some tag)
    (htag : t.tag ≠ tag) (ws : List PWord) : s.routeWrite t a ws = .refuse .tag a := by
  unfold State.routeWrite
  rw [howner]
  exact if_pos htag

/-- What the owner's write meets: the test of its size and slot, then the test of its words (R142). -/
theorem routeWrite_owner {s : State} {t : Txn} {a : Area} (howner : s.owner a = some t.tag) (ws : List PWord) :
    s.routeWrite t a ws =
      if a ≠ .settings ∧ ¬(t.op.len = 4 ∧ t.addr.toNat % 16 = 0) then .refuse .align a
      else if ∃ w ∈ ws, parityOk w = false then .refuse .parity a
      else .take a (dataOf ws) := by
  have hsize : (a.sized && !t.oneRecord) = true ↔ a ≠ .settings ∧ ¬(t.op.len = 4 ∧ t.addr.toNat % 16 = 0) := by
    rw [Bool.and_eq_true, sized_of_owner howner, Bool.not_eq_true', Txn.oneRecord, decide_eq_false_iff_not]
  have hwords : (!ws.all parityOk) = true ↔ ∃ w ∈ ws, parityOk w = false := by
    simp only [Bool.not_eq_true', List.all_eq_false, Bool.not_eq_true]
  unfold State.routeWrite
  rw [howner]
  simp only [ne_eq, not_true_eq_false, if_false, hsize, hwords]

/-- The refusals of a transaction inside one area reach its master with an event (R143). -/
theorem exec_forwardRaw_refused {s : State} {t : Txn} {a : Area} {why : Refuse} (hfree : PortFree s)
    (hroute : s.route t = .refuse why a) :
    exec (.forwardRaw t) s = .next (s.answers .refuse (refusedFeed t.tag why a s.feed)) :=
  exec_forwardRaw_free hfree hroute

/-- Settles O38, test by test: the address phase, the alignment, the tests of a WRITE, the slot of a MOVE read. -/
theorem portRefusesByItsFirstFailingTest : Obligations.PortRefusesByItsFirstFailingTest := by
  intro s t addr len refused broken hfree hpos hmax
  refine ⟨fun hparity => exec_forwardRaw_free hfree (route_addrParity hparity), fun hparity hbroken => ?align,
    fun a ws hparity hin hop => ?write, fun g n hparity hin hop htag hrecord => ?moveRead⟩
  case align =>
    have hroute := route_broken hparity ((breaksAlign_iff s t).mpr hbroken)
    refine ⟨fun a i hi harea hbefore => ?_, fun hnone => ?_⟩
    · have hfirst : s.alignArea t = some a := (alignArea_eq s t).trans (findSome?_range_eq_some hi harea hbefore)
      exact exec_forwardRaw_free hfree (hfirst ▸ hroute)
    · have hoff : s.alignArea t = none := (alignArea_eq s t).trans (List.findSome?_eq_none_iff.mpr fun i hi =>
        hnone i (List.mem_range.mp hi))
      exact exec_forwardRaw_free hfree (hoff ▸ hroute)
  case write =>
    have hroute : s.route t = s.routeWrite t a ws := by rw [State.route_inside hparity hin, hop]
    refine ⟨fun howner => ?_, fun x howner htag => ?_, fun howner hsized hrecord => ?_, fun howner hrecord hbad => ?_⟩
      <;> apply exec_forwardRaw_refused hfree <;> rw [hroute]
    · exact routeWrite_partOwned howner t ws
    · exact routeWrite_tag howner htag ws
    · rw [routeWrite_owner howner, if_pos ⟨hsized, hrecord⟩]
    · rw [routeWrite_owner howner, if_neg (fun h => hrecord.elim h.1 h.2), if_pos hbad]
  case moveRead =>
    have hslot : t.oneRecord = false := decide_eq_false hrecord
    have hroute : s.route t = .refuse .align (.move g) := by
      rw [State.route_inside hparity hin, hop]
      simp only [State.routeRead, if_pos htag, hslot, Bool.false_eq_true, if_false]
    exact exec_forwardRaw_refused hfree hroute

/-! ### What is held, what waits on the bus, what is retried (R147, R149, R154) -/

/-- A READ of a watched area is forwarded raw, but for the status area and a drive's own MOVE window (R141). -/
theorem routeRead_raw {s : State} {t : Txn} {a : Area} (hstatus : a ≠ .status)
    (hmove : ∀ g, a = .move g → t.tag ≠ s.feed.cfg.driveTag[g]) : s.routeRead t a = .raw := by
  cases a
  case status => exact absurd rfl hstatus
  case move g => exact if_neg (hmove g rfl)
  all_goals rfl

theorem present_reset {s : State} (h : s.resetLow = true) (t : Txn) : s.present t = s.reply .retry := if_pos h

/-- Behind an open posted write a transaction waits on the bus, not yet arrived (R149). -/
theorem present_behindPosted {s : State} (hreset : s.resetLow = false) (hbus : s.bus.onBus = none)
    (hheld : s.bus.held = none) (hposted : s.bus.posted.isSome = true) (t : Txn) :
    s.present t = { s with bus := { s.bus with onBus := some t, answer := none } } := by
  unfold State.present
  rw [hreset, hbus, hheld, hposted]
  rfl

/-- Settles O39: the raw route, the wait behind a posted write, the retry under RESET_N, and the bound in force. -/
theorem forwardRawIsHeld : Obligations.ForwardRawIsHeld := by
  intro s t
  refine ⟨fun hfree hparity hin => exec_forwardRaw_free hfree (State.route_unwatched hparity hin),
    fun a n hfree hparity hin hop hstatus hmove => ?watched,
    fun hreset hbus hheld hposted => congrArg done (present_behindPosted hreset hbus hheld hposted t),
    fun hreset => congrArg done (present_reset hreset t), fun hrun => if_pos hrun, fun hrun => if_neg hrun⟩
  case watched =>
    have hroute : s.route t = .raw := by
      rw [State.route_inside hparity hin, hop]
      exact routeRead_raw hstatus hmove
    exact exec_forwardRaw_free hfree hroute

end Sys2Proof.Machine
end

section
/-! SUPPORT. The forwarder's operation at the memory port: how memory's answer or its bound ends a held transaction and
an open posted write, and how the transaction behind a posted write arrives (R145, R147 to R151). -/

namespace Sys2Proof.Machine

/-! ### The port and memory after an answer -/

theorem endOp_read {o : PortOp} {n : Nat} (hop : o.op = .read n) (a : MemAnswer) (s : State) :
    s.endOp o a = { s with bus := { s.bus with port := none } } := by
  unfold State.endOp State.memAfter
  rw [hop]
  rfl

/-- A faulted write of the forwarder leaves free words at its addresses (log 6). -/
theorem endOp_forwarded_fault {o : PortOp} {ws : List PWord} (hop : o.op = .write ws)
    (hkind : o.kind = .raw ∨ o.kind = .posted) (s : State) : s.endOp o .fault = { s with
      mem := s.mem.writeWords o.addr (faultedWords s.openCount ws), openCount := s.openCount + 1,
      bus := { s.bus with port := none } } := by
  unfold State.endOp State.memAfter
  rw [hop]
  rcases hkind with hkind | hkind <;> rw [hkind] <;> rfl

/-- A read finds memory as it stands (R150). -/
theorem readAnswer_endOp {o : PortOp} {n : Nat} (hop : o.op = .read n) (a : MemAnswer) (s : State) :
    (s.endOp o a).readAnswer o a = s.readAnswer o a := by
  rw [endOp_read hop]
  rfl

theorem readAnswer_done {o : PortOp} {n : Nat} (hop : o.op = .read n) (ups : List Upset) (s : State) :
    s.readAnswer o (.done ups) = some (upsetWords ups (s.mem.readWords o.addr n)) := by
  unfold State.readAnswer
  rw [hop]
  rfl

/-! ### A held transaction (R145, R147, R148) -/

theorem passParity_eq (ws : List PWord) (f : Feed) :
    f.passParity ws = if ∀ w ∈ ws, parityOk w = true then f else f.count .passedParity := by
  simp only [Feed.passParity, List.all_eq_true]

theorem answerRaw_read {o : PortOp} {n : Nat} (hop : o.op = .read n) (ups : List Upset) (ws : List PWord) (s : State) :
    s.answerRaw o (.done ups) (some ws) = (s.unhold.onFeed (Feed.passParity ws)).replyData ws := by
  unfold State.answerRaw
  rw [hop]
  rfl

theorem answerRaw_write {o : PortOp} {ws : List PWord} (hop : o.op = .write ws) (ups : List Upset)
    (read : Option (List PWord)) (s : State) : s.answerRaw o (.done ups) read = s.unhold.reply .done := by
  unfold State.answerRaw
  rw [hop]

theorem exec_heldMemoryAnswer_live {s : State} {o : PortOp} (a : MemAnswer) (hport : s.bus.port = some o)
    (hkind : o.kind = .raw) (hlive : o.discard = false) :
    exec (.heldMemoryAnswer a) s = done ((s.endOp o a).answerRaw o a ((s.endOp o a).readAnswer o a)) :=
  congrArg done (State.answered_live (p := (· == .raw)) hport (by rw [hkind]; rfl) hlive)

theorem exec_heldMemoryAnswer_late {s : State} {o : PortOp} (a : MemAnswer) (hport : s.bus.port = some o)
    (hkind : o.kind = .raw) (hlate : o.discard = true) : exec (.heldMemoryAnswer a) s = done (s.endOp o a) :=
  congrArg done (State.answered_late hport (by rw [hkind]; rfl) hlate)

theorem exec_judgeMove_late {s : State} {o : PortOp} (a : MemAnswer) (hport : s.bus.port = some o)
    (hkind : o.kind.isJudged = true) (hlate : o.discard = true) : exec (.judgeMove a) s = done (s.endOp o a) :=
  congrArg done (State.answered_late hport hkind hlate)

/-- At its bound a held transaction is retried, and the answer to its operation is to be discarded (R147, R148). -/
theorem expireHeld_bound {s : State} {h : Held} {us : Nat} (hheld : s.bus.held = some h) (hbound : h.bound ≤ us) :
    s.expireHeld us = ((s.discardOp OpKind.isHeld).unhold.onFeed (Feed.count .latencyRetry)).reply .retry := by
  unfold State.expireHeld
  rw [hheld]
  exact if_neg (Nat.not_lt.mpr hbound)

/-- Settles O40: the live answers to a READ and to a WRITE, the bound, and the answers that come after it. -/
theorem heldTransactionEndsByAnswerOrBound : Obligations.HeldTransactionEndsByAnswerOrBound := by
  intro s o h us a ended passed
  refine ⟨fun ups n ws hport hkind hlive hop ha hws => ?read, fun ups ws hport hkind hlive hop ha => ?write,
    fun n hport hkind hlive hop ha => ?readFault, fun ws hport hkind hlive hop ha => ?writeFault,
    fun hheld hbound => congrArg done (expireHeld_bound hheld hbound),
    fun n hport hop hlate => ⟨fun hkind => ?lateRead, fun hkind => ?lateJudged⟩,
    fun ws hport hop hlate hkind => ⟨fun ups ha => ?lateWrite, fun ha => ?lateFault⟩⟩
  case read =>
    subst ha hws
    rw [exec_heldMemoryAnswer_live _ hport hkind hlive, readAnswer_endOp hop, readAnswer_done hop, answerRaw_read hop,
      endOp_read hop]
    exact congrArg (fun f => ended f s.mem .done (upsetWords ups (s.mem.readWords o.addr n))) (passParity_eq _ s.feed)
  case write =>
    subst ha
    rw [exec_heldMemoryAnswer_live _ hport hkind hlive, answerRaw_write hop, endOp_done hop]
    rfl
  case readFault =>
    subst ha
    rw [exec_heldMemoryAnswer_live _ hport hkind hlive, endOp_read hop]
    rfl
  case writeFault =>
    subst ha
    refine ⟨_, s.openCount + 1, ?_, fun x hx => readByte_faultedWords_out s.mem o.addr s.openCount ws hx⟩
    rw [exec_heldMemoryAnswer_live _ hport hkind hlive, endOp_forwarded_fault hop (.inl hkind)]
    rfl
  case lateRead =>
    rw [exec_heldMemoryAnswer_late a hport hkind hlate, endOp_read hop]
    rfl
  case lateJudged =>
    rw [exec_judgeMove_late a hport hkind hlate, endOp_read hop]
    rfl
  case lateWrite =>
    rw [ha, exec_heldMemoryAnswer_late _ hport hkind hlate, endOp_done hop]
    rfl
  case lateFault =>
    refine ⟨_, s.openCount + 1, ?_, fun x hx => readByte_faultedWords_out s.mem o.addr s.openCount ws hx⟩
    rw [ha, exec_heldMemoryAnswer_late _ hport hkind hlate, endOp_forwarded_fault hop (.inl hkind)]
    rfl

/-! ### The transaction behind a posted write (R149) -/

theorem unanswered_eq {s : State} (h : s.bus.answer = none) : s.unanswered = s := by
  unfold State.unanswered
  rw [← h]

theorem arriveNext_idle {s : State} (h : s.bus.onBus = none) : s.arriveNext = s := by
  unfold State.arriveNext
  rw [h]

/-- A transaction that finds the port free and its answer lines released arrives. -/
theorem exec_forwardRaw_unanswered {s : State} {t : Txn} (hfree : PortFree s) (hanswer : s.bus.answer = none) :
    exec (.forwardRaw t) s = done (s.arrive t) := by
  rw [exec_forwardRaw_free hfree rfl, unanswered_eq hanswer]
  rfl

/-- The state in which the open posted write is closed, before anything else arrives (R149). -/
def State.postedClosed (s : State) (f : Feed) (m : Memory) (n : Nat) (port : Option PortOp) : State :=
  { s with feed := f, mem := m, openCount := n, bus := { s.bus with port := port, posted := none } }

theorem done_postedClosed_idle {s : State} (h : s.bus.onBus = none) (f : Feed) (m : Memory) (n : Nat)
    (port : Option PortOp) :
    done (s.postedClosed f m n port).arriveNext = .next (settle (s.postedClosed f m n port)) := by
  rw [arriveNext_idle (s := s.postedClosed f m n port) h]
  rfl

/-- The transaction that waited behind the write is taken as if it were presented to the free port (R149). -/
theorem exec_forwardRaw_postedClosed {s : State} {t : Txn} (hreset : s.resetLow = false) (hbus : s.bus.onBus = some t)
    (hheld : s.bus.held = none) (hanswer : s.bus.answer = none) (f : Feed) (m : Memory) (n : Nat)
    (port : Option PortOp) :
    exec (.forwardRaw t) { s with
      feed := f, mem := m, openCount := n, bus := { s.bus with port := port, posted := none, onBus := none } } =
      done (s.postedClosed f m n port).arriveNext := by
  have hnext : (s.postedClosed f m n port).arriveNext = ({ s with
      feed := f, mem := m, openCount := n, bus := { s.bus with port := port, posted := none, onBus := none } } :
      State).arrive t := by
    simp only [State.arriveNext, State.postedClosed, hbus]
  rw [hnext]
  exact exec_forwardRaw_unanswered ⟨hreset, rfl, hheld, rfl⟩ hanswer

/-! ### An open posted write (R149, R150) -/

theorem closePosted_done {s : State} {p : Posted} (h : s.bus.posted = some p) :
    s.closePosted false = ({ s with bus := { s.bus with posted := none } } : State).arriveNext := by
  unfold State.closePosted
  rw [h]
  rfl

theorem closePosted_fault {s : State} {p : Posted} (h : s.bus.posted = some p) :
    s.closePosted true = ({ s with
      feed := s.feed.memFault p.tag.toNat p.area, bus := { s.bus with posted := none } } : State).arriveNext := by
  unfold State.closePosted
  rw [h]
  rfl

theorem exec_postedWriteAnswer_late {s : State} {o : PortOp} (a : MemAnswer) (hport : s.bus.port = some o)
    (hkind : o.kind = .posted) (hlate : o.discard = true) : exec (.postedWriteAnswer a) s = done (s.endOp o a) :=
  congrArg done (State.answered_late hport (by rw [hkind]; rfl) hlate)

section
variable {s : State} {o : PortOp} {p : Posted}

theorem exec_postedWriteAnswer_live (a : MemAnswer) (hport : s.bus.port = some o) (hkind : o.kind = .posted)
    (hlive : o.discard = false) :
    exec (.postedWriteAnswer a) s = done ((s.endOp o a).closePosted (MemAnswer.isFault a)) :=
  congrArg done (State.answered_live (p := (· == .posted)) hport (by rw [hkind]; rfl) hlive)

variable (hposted : s.bus.posted = some p)
include hposted

/-- At its bound an open posted write is closed as a FAULT, and the answer to its operation is to be discarded (R149). -/
theorem exec_postedWriteTimeout {us : Nat} (hbound : p.bound ≤ us) :
    exec (.postedWriteTimeout us) s = done (s.postedClosed (s.feed.memFault p.tag.toNat p.area) s.mem s.openCount
      (s.bus.port.map fun o => if o.kind = .posted then { o with discard := true } else o)).arriveNext := by
  have hexpire : s.expirePosted us = (s.discardOp (· == .posted)).closePosted true := by
    unfold State.expirePosted
    rw [hposted]
    exact if_neg (Nat.not_lt.mpr hbound)
  have hdiscard : s.discardOp (· == .posted) = { s with bus := { s.bus with
      port := s.bus.port.map fun o => if o.kind = .posted then { o with discard := true } else o } } := by
    simp only [State.discardOp, beq_iff_eq]
  rw [hdiscard] at hexpire
  exact congrArg done (hexpire.trans (closePosted_fault hposted))

variable (hport : s.bus.port = some o) (hkind : o.kind = .posted) (hlive : o.discard = false)
  (hop : o.op = .write p.words) (haddr : o.addr = p.addr)
include hport hkind hlive hop haddr

theorem exec_postedWriteAnswer_done (ups : List Upset) :
    exec (.postedWriteAnswer (.done ups)) s =
      done (s.postedClosed s.feed (s.mem.writeWords p.addr p.words) s.openCount none).arriveNext := by
  rw [exec_postedWriteAnswer_live _ hport hkind hlive, endOp_done hop, haddr]
  exact congrArg done (closePosted_done hposted)

theorem exec_postedWriteAnswer_fault :
    exec (.postedWriteAnswer .fault) s = done (s.postedClosed (s.feed.memFault p.tag.toNat p.area)
      (s.mem.writeWords p.addr (faultedWords s.openCount p.words)) (s.openCount + 1) none).arriveNext := by
  rw [exec_postedWriteAnswer_live _ hport hkind hlive, endOp_forwarded_fault hop (.inr hkind), haddr]
  exact congrArg done (closePosted_fault hposted)

end

/-- Settles O41: the closing with nothing behind it, the closing with a transaction behind it, and the late answers. -/
theorem postedWriteIsClosedByAnswerOrBound : Obligations.PostedWriteIsClosedByAnswerOrBound := by
  refine ⟨?alone, ?behind, fun s o ws ups hport hkind hlate hop => ?late⟩
  case alone =>
    intro s o p us ups faulted hposted hbus
    refine ⟨fun hport hkind hlive hop haddr => ⟨?_, _, s.openCount + 1, ?_, fun x hx =>
      readByte_faultedWords_out s.mem p.addr s.openCount p.words hx⟩, fun hbound => ?_⟩
    · rw [exec_postedWriteAnswer_done hposted hport hkind hlive hop haddr, done_postedClosed_idle hbus]
      rfl
    · rw [exec_postedWriteAnswer_fault hposted hport hkind hlive hop haddr, done_postedClosed_idle hbus]
      rfl
    · rw [exec_postedWriteTimeout hposted hbound, done_postedClosed_idle hbus]
      rfl
  case behind =>
    intro s o p t ups us faulted hreset hposted hbus hheld hanswer
    have arrives := exec_forwardRaw_postedClosed hreset hbus hheld hanswer
    refine ⟨fun hport hkind hlive hop haddr => ⟨?_, ?_⟩, fun hbound => ?_⟩
    · exact ⟨_, exec_postedWriteAnswer_done hposted hport hkind hlive hop haddr ups, arrives ..⟩
    · exact ⟨_, _, _, exec_postedWriteAnswer_fault hposted hport hkind hlive hop haddr, arrives .., fun x hx =>
        readByte_faultedWords_out s.mem p.addr s.openCount p.words hx⟩
    · exact ⟨_, exec_postedWriteTimeout hposted hbound, arrives ..⟩
  case late =>
    refine ⟨?_, _, s.openCount + 1, ?_, fun x hx => readByte_faultedWords_out s.mem o.addr s.openCount ws hx⟩
    · rw [exec_postedWriteAnswer_late _ hport hkind hlate, endOp_done hop]
      rfl
    · rw [exec_postedWriteAnswer_late _ hport hkind hlate, endOp_forwarded_fault hop (.inr hkind)]
      rfl

end Sys2Proof.Machine
end

section
/-! SUPPORT. The memory port's arbiter: what each claimant has ready, whose turn the free port is, and the grant (R145,
R151, R152, R160; logs 14, 16). -/

namespace Sys2Proof.Machine

/-! ### The claimants' next operations (R152, R160) -/

theorem nextOp_posted {s : State} {p : Posted} (h : s.bus.posted = some p) :
    s.nextOp .forwarder = some ⟨.posted, p.addr, .write p.words, false⟩ := by
  unfold State.nextOp Bus.forwarderOp
  rw [h]

theorem nextOp_judged {s : State} {h : Held} {g : Gantry} (hposted : s.bus.posted = none) (hheld : s.bus.held = some h)
    (hjudged : h.judged = some g) : s.nextOp .forwarder = some ⟨.judged g, h.txn.addr.toNat, h.txn.op, false⟩ := by
  simp only [State.nextOp, Bus.forwarderOp, hposted, hheld, hjudged]

theorem nextOp_raw {s : State} {h : Held} (hposted : s.bus.posted = none) (hheld : s.bus.held = some h)
    (hjudged : h.judged = none) : s.nextOp .forwarder = some ⟨.raw, h.txn.addr.toNat, h.txn.op, false⟩ := by
  simp only [State.nextOp, Bus.forwarderOp, hposted, hheld, hjudged]

theorem nextOp_forwarder_none {s : State} (hposted : s.bus.posted = none) (hheld : s.bus.held = none) :
    s.nextOp .forwarder = none := by
  unfold State.nextOp Bus.forwarderOp
  rw [hposted, hheld]

/-- In START the settings reader waits for the record of the reload to be closed (R152, R154). -/
theorem nextOp_reader {s : State} (hstart : s.feed.part = .start) :
    s.nextOp .own = if s.bus.posted.any (·.reload) then none else some s.readerOp := by
  have hreader : s.readerReady = !s.bus.posted.any (·.reload) := by
    unfold State.readerReady
    rw [hstart]
    cases s.bus.posted <;> rfl
  have hwriter : s.feed.writerReady = false := by
    unfold Feed.writerReady
    rw [hstart]
    rfl
  simp only [State.nextOp, State.ownOp, hreader, hwriter, Bool.not_eq_true', Bool.false_eq_true, if_false]
  cases s.bus.posted.any (·.reload) <;> rfl

/-- In RUN the own side's next operation is the record writer's (R152). -/
theorem nextOp_writer {s : State} (hrun : s.feed.part = .run) : s.nextOp .own = s.feed.writerOp := by
  have hreader : s.readerReady = false := by
    unfold State.readerReady
    rw [hrun]
    rfl
  have hwriter : s.feed.writerReady = (!s.feed.notices.isEmpty || !s.feed.events.isEmpty) := by
    unfold Feed.writerReady
    rw [hrun]
    rfl
  simp only [State.nextOp, State.ownOp, hreader, hwriter, Bool.false_eq_true, if_false, Feed.writerOp]
  cases s.feed.notices <;> cases s.feed.events <;> rfl

theorem nextOp_locked {s : State} (hlocked : s.feed.part = .locked) : s.nextOp .own = none := by
  unfold State.nextOp State.ownOp State.readerReady Feed.writerReady
  rw [hlocked]
  rfl

theorem writerOp_notice {f : Feed} {n : Notice} {rest : List Notice} (h : f.notices = n :: rest) :
    f.writerOp = some ⟨.notice n.station, f.cfg.noticeBase[n.station], .write (outWords n.words), false⟩ := by
  unfold Feed.writerOp
  rw [h]

theorem writerOp_event {f : Feed} {e : Event} {rest : List Event} (hnotices : f.notices = [])
    (hevents : f.events = e :: rest) :
    f.writerOp = some ⟨.event, f.cfg.ringBase + 16 * f.prod, .write (outWords e.words), false⟩ := by
  unfold Feed.writerOp
  rw [hnotices, hevents]

theorem writerOp_none {f : Feed} (hnotices : f.notices = []) (hevents : f.events = []) : f.writerOp = none := by
  unfold Feed.writerOp
  rw [hnotices, hevents]

/-- A claimant waits exactly while it has an operation for the port (R151). -/
theorem ready_eq_isSome (s : State) (c : Claimant) : s.ready c = (s.nextOp c).isSome := by
  cases c
  case forwarder =>
    simp only [State.ready, State.nextOp, Bus.forwarderReady, Bus.forwarderOp]
    cases s.bus.posted <;> cases s.bus.held <;> rfl
  case own =>
    have hwriter : s.feed.writerReady = true → s.feed.writerOp.isSome = true := by
      unfold Feed.writerReady Feed.writerOp
      cases s.feed.notices <;> cases s.feed.events <;> simp
    simp only [State.ready, State.nextOp, State.ownReady, State.ownOp]
    cases hreader : s.readerReady
    · cases hready : s.feed.writerReady
      · rfl
      · exact (hwriter hready).symm
    · rfl

/-! ### Whose turn it is (R151) -/

theorem Claimant.swap_swap (c : Claimant) : c.swap.swap = c := by cases c <;> rfl

theorem Claimant.eq_or_eq_swap (c d : Claimant) : d = c ∨ d = c.swap := by
  cases c <;> cases d <;> simp [Claimant.swap]

theorem nextTurn_both {s : State} (h : s.ready s.bus.lastGrant.swap = true) :
    s.nextTurn = some s.bus.lastGrant.swap := if_pos h

/-- A claimant that waits alone has the turn, whoever had the last grant. -/
theorem nextTurn_alone {s : State} {c : Claimant} (hready : s.ready c = true) (hother : s.ready c.swap = false) :
    s.nextTurn = some c := by
  unfold State.nextTurn
  rcases c.eq_or_eq_swap s.bus.lastGrant with hlast | hlast <;> rw [hlast]
  · rw [hother, hready]
    rfl
  · rw [c.swap_swap, hready]
    rfl

theorem nextTurn_none {s : State} (h : ∀ c, s.ready c = false) : s.nextTurn = none := by
  unfold State.nextTurn
  rw [h, h]
  rfl

section
variable {s : State} (hreset : s.resetLow = false) (hport : s.bus.port = none)
include hreset hport

/-- The turn that stands is kept while its claimant waits, and decided anew otherwise (R151). -/
theorem turnNow_some {d : Claimant} (hturn : s.bus.turn = some d) :
    s.turnNow = if s.ready d then some d else s.nextTurn := by
  unfold State.turnNow
  rw [hreset, hport, hturn]
  rfl

theorem turnNow_undecided (hturn : s.bus.turn = none) : s.turnNow = s.nextTurn := by
  unfold State.turnNow
  rw [hreset, hport, hturn]
  rfl

theorem turnNow_alone {c : Claimant} (hready : s.ready c = true) (hother : s.ready c.swap = false) :
    s.turnNow = some c := by
  cases hturn : s.bus.turn with
  | none => rw [turnNow_undecided hreset hport hturn, nextTurn_alone hready hother]
  | some d =>
    rw [turnNow_some hreset hport hturn]
    rcases c.eq_or_eq_swap d with rfl | rfl
    · exact if_pos hready
    · rw [hother, nextTurn_alone hready hother]
      rfl

theorem turnNow_none (h : ∀ c, s.ready c = false) : s.turnNow = none := by
  cases hturn : s.bus.turn with
  | none => rw [turnNow_undecided hreset hport hturn, nextTurn_none h]
  | some d =>
    rw [turnNow_some hreset hport hturn, h, nextTurn_none h]
    rfl

/-! ### The grant (R145, R151) -/

/-- The free port goes to the claimant whose turn it is; the turn is decided anew when the port falls free. -/
theorem exec_portGrant {o : PortOp} {c : Claimant} (hturn : s.bus.turn = some c) (hop : s.nextOp c = some o) :
    exec .portGrant s = .next (settle { s with
      feed := s.feed.passParity o.rawWords
      bus := { s.bus with port := some o, lastGrant := c, turn := none } }) := by
  have hgrant : s.grant = { s with
      feed := s.feed.passParity o.rawWords, bus := { s.bus with port := some o, lastGrant := c } } := by
    unfold State.grant
    rw [hreset, hport, hturn]
    simp only [Option.isSome_none, Bool.or_self, Bool.false_eq_true, if_false, hop]
  exact (congrArg done hgrant).trans rfl

end

theorem rawWords_raw {o : PortOp} {ws : List PWord} (hkind : o.kind = .raw) (hop : o.op = .write ws) :
    o.rawWords = ws := by
  unfold PortOp.rawWords
  rw [hop]
  exact if_pos hkind

theorem rawWords_read {o : PortOp} {n : Nat} (hop : o.op = .read n) : o.rawWords = [] := by
  unfold PortOp.rawWords
  rw [hop]

theorem rawWords_other {o : PortOp} (hkind : o.kind ≠ .raw) : o.rawWords = [] := by
  unfold PortOp.rawWords
  split
  · exact if_neg hkind
  · rfl

/-- Settles O42: the operations are the claimants' own, the grant counts a raw write's bad words, and the turn goes by
who waits. -/
theorem portGrantGoesInTurn : Obligations.PortGrantGoesInTurn := by
  intro s o c op swap granted hreset hport
  have hnext (c : Claimant) : op c = s.nextOp c := by
    cases c
    case forwarder =>
      dsimp only [op]
      split
      case h_1 hposted => exact (nextOp_posted hposted).symm
      case h_2 hposted hheld =>
        split
        case h_1 hjudged => exact (nextOp_judged hposted hheld hjudged).symm
        case h_2 hjudged => exact (nextOp_raw hposted hheld hjudged).symm
      case h_3 hposted hheld => exact (nextOp_forwarder_none hposted hheld).symm
    case own =>
      dsimp only [op]
      split
      case h_1 hstart => exact (nextOp_reader hstart).symm
      case h_2 hrun hnotices => rw [nextOp_writer hrun, writerOp_notice hnotices]
      case h_3 hrun hnotices hevents => rw [nextOp_writer hrun, writerOp_event hnotices hevents]
      case h_4 hrun hnotices hevents => rw [nextOp_writer hrun, writerOp_none hnotices hevents]
      case h_5 hlocked => exact (nextOp_locked hlocked).symm
  have hready (c : Claimant) : s.ready c = (op c).isSome := by rw [ready_eq_isSome, hnext]
  have hswap (c : Claimant) : swap c = c.swap := by cases c <;> rfl
  refine ⟨fun hturn hop => ?grant, fun hturn hforwarder hown => ?both, fun hc hother => ?alone,
    fun hforwarder hown => ?nobody⟩
  case grant =>
    have hexec (ws : List PWord) (hraw : o.rawWords = ws) : exec .portGrant s = granted (s.feed.passParity ws) :=
      hraw ▸ exec_portGrant hreset hport hturn ((hnext c).symm.trans hop)
    refine ⟨fun ws hkind hop hbad => ?_, fun ws hkind hop hgood => ?_, fun n hop => ?_, fun hkind => ?_⟩
    · rw [hexec ws (rawWords_raw hkind hop), Feed.passParity_bad hbad]
    · rw [hexec ws (rawWords_raw hkind hop), Feed.passParity_good hgood]
    · exact hexec [] (rawWords_read hop)
    · exact hexec [] (rawWords_other hkind)
  case both =>
    have hwaits : s.ready s.bus.lastGrant.swap = true := by
      rw [hready]
      cases s.bus.lastGrant
      · exact hown
      · exact hforwarder
    rw [hswap]
    exact (turnNow_undecided hreset hport hturn).trans (nextTurn_both hwaits)
  case alone =>
    have hquiet : s.ready c.swap = false := by rw [hready, ← hswap, hother]; rfl
    exact turnNow_alone hreset hport ((hready c).trans hc) hquiet
  case nobody =>
    refine turnNow_none hreset hport fun c => ?_
    rw [hready]
    cases c
    · rw [hforwarder]; rfl
    · rw [hown]; rfl

end Sys2Proof.Machine
end

section
/-! SUPPORT. The settings reader's burst: what its words, memory's FAULT or its bound do to the load (R151, R174 to
R177). -/

namespace Sys2Proof.Machine

theorem exec_settingsBurst_live {s : State} {o : PortOp} (a : MemAnswer) (hport : s.bus.port = some o)
    (hkind : o.kind = .settings) (hlive : o.discard = false) :
    exec (.settingsBurst a) s = done ((s.endOp o a).takeBurst (goodData ((s.endOp o a).readAnswer o a))) :=
  congrArg done (State.answered_live (p := (· == .settings)) hport (by rw [hkind]; rfl) hlive)

theorem exec_settingsBurst_late {s : State} {o : PortOp} (a : MemAnswer) (hport : s.bus.port = some o)
    (hkind : o.kind = .settings) (hlate : o.discard = true) : exec (.settingsBurst a) s = done (s.endOp o a) :=
  congrArg done (State.answered_late hport (by rw [hkind]; rfl) hlate)

theorem takeBurst_partial {s : State} {ws : List Word} (h : (s.bus.image ++ ws).length < 64) :
    s.takeBurst (some ws) = { s with bus := { s.bus with image := s.bus.image ++ ws } } := if_pos h

theorem takeBurst_whole {s : State} {ws : List Word} (h : 64 ≤ (s.bus.image ++ ws).length) :
    s.takeBurst (some ws) = s.endLoad (s.bus.image ++ ws) := if_neg (Nat.not_lt.mpr h)

theorem endLoad_valid {s : State} {ws : List Word} (h : validate s.anchor s.lcTag ws = .none) :
    s.endLoad ws =
      ({ s with bus := { s.bus with image := [] } } : State).onFeed
        (Feed.enterRun (.ofImage ws) s.vacRaw s.presentRaw) := by
  unfold State.endLoad
  rw [h]

theorem endLoad_invalid {s : State} {ws : List Word} (h : validate s.anchor s.lcTag ws ≠ .none) :
    s.endLoad ws = s.failLoad (validate s.anchor s.lcTag ws) := by
  unfold State.endLoad
  split
  case h_1 hvalid => exact absurd hvalid h
  case h_2 => rfl

/-- A burst not answered within 64 microseconds fails the load, and its answer is to be discarded (R151, R174). -/
theorem expireBurst_bound {s : State} {o : PortOp} {us : Nat} (hport : s.bus.port = some o)
    (hkind : o.kind = .settings) (hlive : o.discard = false) (hbound : 64 ≤ us) :
    s.expireBurst us =
      ({ s with bus := { s.bus with port := some { o with discard := true } } } : State).failLoad .memory := by
  have hsettings : (o.kind == .settings) = true := by rw [hkind]; rfl
  have hop : s.opOf (· == .settings) = some o := by
    unfold State.opOf
    rw [hport]
    exact if_pos hsettings
  have hrun : ¬(o.discard || decide (us < Config.startBound)) = true := by simp [hlive, hbound]
  unfold State.expireBurst
  rw [hop, discardOp_eq hport hsettings]
  exact if_neg hrun

/-- Settles O49: bad words, good words up to the fourth burst and at it, the bound, and the answer after it. -/
theorem settingsBurstsLoadTheImage : Obligations.SettingsBurstsLoadTheImage := by
  intro s o a us result hport hkind hop
  refine ⟨fun hlive => ⟨fun hbad => ?bad, ?good,
    fun hbound => congrArg done (expireBurst_bound hport hkind hlive hbound)⟩, fun hlate => ?late⟩
  case bad =>
    rw [exec_settingsBurst_live a hport hkind hlive, readAnswer_endOp hop, hbad, endOp_read hop]
    rfl
  case good =>
    intro ws hgood image
    have hexec : exec (.settingsBurst a) s = done (s.freePort.takeBurst (some ws)) := by
      rw [exec_settingsBurst_live a hport hkind hlive, readAnswer_endOp hop, hgood, endOp_read hop]
      rfl
    have hfourth (hfull : 64 ≤ image.length) : s.freePort.takeBurst (some ws) = s.freePort.endLoad image :=
      takeBurst_whole (s := s.freePort) hfull
    refine ⟨fun hshort => ?_, fun hfull hvalid => ?_, fun hfull hinvalid => ?_⟩
    · exact hexec.trans (congrArg done (takeBurst_partial (s := s.freePort) hshort))
    · exact hexec.trans (congrArg done ((hfourth hfull).trans (endLoad_valid (s := s.freePort) hvalid)))
    · exact hexec.trans (congrArg done ((hfourth hfull).trans (endLoad_invalid (s := s.freePort) hinvalid)))
  case late =>
    rw [exec_settingsBurst_late a hport hkind hlate, endOp_read hop]
    rfl

end Sys2Proof.Machine
end

section
/-! SUPPORT. RESET_N asserted and released: what is retried, what memory keeps, and the power-on values (R154, R173;
logs 7, 14, 17, 25, 28, 38). -/

namespace Sys2Proof.Machine

/-! ### What RESET_N abandons (R154) -/

/-- What is in hand on the bus or held is answered RETRY, and otherwise the last answer is kept (log 25). -/
theorem retryInHand_eq (s : State) : s.retryInHand = { s with bus := { s.bus with
    answer := if s.bus.onBus.isSome = true ∨ s.bus.held.isSome = true then some ⟨.retry, []⟩ else s.bus.answer } } := by
  unfold State.retryInHand
  simp only [Bool.or_eq_true]
  split <;> rfl

/-- Abandoning the operation in progress acts on memory alone. -/
theorem abandonOp_eq (s : State) :
    s.abandonOp = { s with mem := s.abandonOp.mem, openCount := s.abandonOp.openCount } := by
  unfold State.abandonOp
  split
  · split <;> rfl
  · rfl

theorem abandonPosted_eq (s : State) :
    s.abandonPosted = { s with mem := s.abandonPosted.mem, openCount := s.abandonPosted.openCount } := by
  unfold State.abandonPosted
  split
  · split <;> rfl
  · rfl

/-- An operation at the port that is a read leaves memory (R154). -/
theorem abandonOp_mem {s : State} (h : ∀ o, s.bus.port = some o → o.op = .read o.op.len) :
    s.abandonOp.mem = s.mem := by
  unfold State.abandonOp
  split
  case h_1 o hport =>
    rw [h o hport]
  case h_2 => rfl

theorem abandonPosted_mem {s : State} (h : s.bus.posted = none) : s.abandonPosted.mem = s.mem := by
  unfold State.abandonPosted
  rw [h]

/-- Every byte outside a write in progress stands, whichever words of it landed (log 7). -/
theorem readByte_abandonOp_out {s : State} {x : Nat}
    (h : ∀ o ws, s.bus.port = some o → o.op = .write ws → x < o.addr ∨ o.addr + 4 * ws.length ≤ x) :
    s.abandonOp.mem.readByte x = s.mem.readByte x := by
  unfold State.abandonOp
  split
  case h_1 o hport =>
    split
    case h_1 ws hop => exact s.mem.readByte_abandonWords_out _ _ _ _ (h o ws hport hop)
    case h_2 => rfl
  case h_2 => rfl

theorem readByte_abandonPosted_out {s : State} {x : Nat}
    (h : ∀ p, s.bus.posted = some p → x < p.addr ∨ p.addr + 4 * p.words.length ≤ x) :
    s.abandonPosted.mem.readByte x = s.mem.readByte x := by
  unfold State.abandonPosted
  split
  case h_1 p hposted =>
    split
    · rfl
    · exact s.mem.readByte_abandonWords_out _ _ _ _ (h p hposted)
  case h_2 => rfl

/-- RESET_N asserted: the whole next state, but for what memory holds of the abandoned writes (R154, R173). -/
theorem exec_resetAssert (s : State) : ∃ m n,
    exec .resetAssert s = .next (settle { s with
      resetLow := true, feed := s.feed.powerOn, mem := m, openCount := n
      bus := { s.bus with
        onBus := none, held := none, posted := none, port := none, image := []
        answer := if s.bus.onBus.isSome = true ∨ s.bus.held.isSome = true then some ⟨.retry, []⟩
          else s.bus.answer } }) ∧
    ((∀ o, s.bus.port = some o → o.op = .read o.op.len) → s.bus.posted = none → m = s.mem) ∧
    ∀ x, (∀ o ws, s.bus.port = some o → o.op = .write ws → x < o.addr ∨ o.addr + 4 * ws.length ≤ x) →
      (∀ p, s.bus.posted = some p → x < p.addr ∨ p.addr + 4 * p.words.length ≤ x) →
      m.readByte x = s.mem.readByte x := by
  have hport : s.retryInHand.bus.port = s.bus.port := by rw [retryInHand_eq]
  have hposted : s.retryInHand.abandonOp.bus.posted = s.bus.posted := by rw [abandonOp_eq, retryInHand_eq]
  have hmem : s.retryInHand.mem = s.mem := by rw [retryInHand_eq]
  refine ⟨s.retryInHand.abandonOp.abandonPosted.mem, s.retryInHand.abandonOp.abandonPosted.openCount, ?state,
    fun hread hnone => ?kept, fun x hop hpost => ?out⟩
  case state =>
    unfold exec execResetAssert
    rw [abandonPosted_eq, abandonOp_eq, retryInHand_eq]
    rfl
  case kept => rw [abandonPosted_mem (hposted.trans hnone), abandonOp_mem (hport ▸ hread), hmem]
  case out => rw [readByte_abandonPosted_out (hposted ▸ hpost), readByte_abandonOp_out (hport ▸ hop), hmem]

/-- RESET_N released: the whole next state, in which the settings reader waits for the port (R173, R174). -/
theorem exec_resetRelease (base : BitVec 4) (lcTag : MasterTag) (s : State) :
    exec (.resetRelease base lcTag) s = .next { s with
      resetLow := false, base := base, lcTag := lcTag, feed := .reset
      bus := { Bus.reset with answer := s.bus.answer } } := rfl

/-- Settles O52: the next state of the assertion, and the reset values of the release. -/
theorem resetAssertAndRelease : Obligations.ResetAssertAndRelease := by
  intro s base lcTag
  refine ⟨?assert, _, exec_resetRelease base lcTag s, ?values⟩
  case assert =>
    obtain ⟨m, n, hexec, hkept, hout⟩ := exec_resetAssert s
    exact ⟨_, hexec, rfl, rfl, rfl, rfl, rfl, rfl, rfl, rfl, rfl, rfl, rfl, fun _ => rfl, hkept, hout⟩
  case values =>
    exact ⟨rfl, rfl, rfl, rfl, rfl, rfl, rfl, rfl, rfl, cellAt_freeRail, reset_ctx, rfl, reset_stations,
      rfl, rfl, rfl, rfl, rfl, rfl, rfl, rfl, rfl, rfl, rfl, rfl, rfl, rfl, rfl⟩

end Sys2Proof.Machine
end

section
/-! SUPPORT. Every act on the feed side, and so every step, keeps the law of the event ring (R159 to R163). -/

namespace Sys2Proof.Machine

/-! ### Operations that leave the ring alone -/

theorem ringLaw_modCtx (g : Gantry) (k : Ctx → Ctx) {f : Feed} (h : RingLaw f) : RingLaw (f.modCtx g k) :=
  ringLaw_congr rfl rfl rfl rfl h

theorem ringLaw_modStation (st : StationId) (k : Station → Station) {f : Feed} (h : RingLaw f) :
    RingLaw (f.modStation st k) :=
  ringLaw_congr rfl rfl rfl rfl h

theorem ringLaw_modOrder (tag : Nat) (k : Order → Order) {f : Feed} (h : RingLaw f) : RingLaw (f.modOrder tag k) :=
  ringLaw_congr rfl rfl rfl rfl h

theorem ringLaw_setOrders (os : List Order) {f : Feed} (h : RingLaw f) : RingLaw { f with orders := os } :=
  ringLaw_congr rfl rfl rfl rfl h

theorem ringLaw_setRail (t : Rail) {f : Feed} (h : RingLaw f) : RingLaw (f.setRail t) :=
  ringLaw_congr rfl rfl rfl rfl h

theorem ringLaw_setVac (g : Gantry) (x : Filter) {f : Feed} (h : RingLaw f) : RingLaw (f.setVac g x) :=
  ringLaw_congr rfl rfl rfl rfl h

/-- An empty ring with an empty queue keeps the law, whatever its capacity (R159). -/
theorem ringLaw_of_empty {f : Feed} (hprod : f.prod = 0) (hcons : f.cons = 0) (hevents : f.events = []) :
    RingLaw f := by
  have hunacked : f.unacked = 0 := by simp [Feed.unacked, hprod, hcons]
  refine ⟨hprod ▸ f.ringCap_pos, hcons ▸ f.ringCap_pos, ?_, ?_⟩
  · simp [Feed.occupancy, hunacked, hevents]
  · simp [hevents]

/-! ### Halts -/

theorem ringLaw_haltCtx (g : Gantry) (r : HaltReason) (b : Option BadMove) {f : Feed} (h : RingLaw f) :
    RingLaw (f.haltCtx g r b) :=
  ringLaw_raise _ _ _ (ringLaw_setRail _ (ringLaw_modCtx g _ h))

theorem ringLaw_furtherFault (g : Gantry) (r : HaltReason) {f : Feed} (h : RingLaw f) : RingLaw (f.furtherFault g r) :=
  ringLaw_raise _ _ _ (ringLaw_modCtx g _ h)

theorem ringLaw_fault (g : Gantry) (r : HaltReason) {f : Feed} (h : RingLaw f) : RingLaw (f.fault g r) := by
  unfold Feed.fault
  split
  · exact ringLaw_furtherFault g r h
  · exact ringLaw_haltCtx g r none h

/-! ### Orders -/

theorem ringLaw_lowerOut (tag : Nat) {f : Feed} (h : RingLaw f) : RingLaw (f.lowerOut tag) := ringLaw_modOrder tag _ h

theorem ringLaw_faultOrder (tag : Nat) (why : OrderFault) {f : Feed} (h : RingLaw f) :
    RingLaw (f.faultOrder tag why) := by
  unfold Feed.faultOrder
  split
  · split
    · exact ringLaw_raise _ _ _ (ringLaw_modOrder tag _ h)
    · exact h
  · exact h

theorem ringLaw_lostPanel (tag : Nat) {f : Feed} (h : RingLaw f) : RingLaw (f.lostPanel tag) :=
  ringLaw_faultOrder tag .lost (ringLaw_lowerOut tag h)

theorem ringLaw_placedPanel (tag : Nat) {f : Feed} (h : RingLaw f) : RingLaw (f.placedPanel tag) := by
  unfold Feed.placedPanel
  split
  · split
    · exact ringLaw_count _ (ringLaw_raise _ _ _ (ringLaw_setOrders _ h))
    · exact ringLaw_modOrder tag _ h
  · exact h

theorem ringLaw_mispicked (tag : Nat) {f : Feed} (h : RingLaw f) : RingLaw (f.mispicked tag) := by
  have missed (c d : Nat) (k : Order → Order) : RingLaw (((f.modOrder tag k).count .mispicks).raise .mispick c d) :=
    ringLaw_raise _ _ _ (ringLaw_count _ (ringLaw_modOrder tag k h))
  unfold Feed.mispicked
  split
  · simp only
    split
    · exact ringLaw_faultOrder tag .mispicks (missed ..)
    · exact missed ..
  · exact h

theorem ringLaw_onOrder {op : Nat → Feed → Feed} (hop : ∀ tag {f : Feed}, RingLaw f → RingLaw (op tag f))
    (k : Option Carry) {f : Feed} (h : RingLaw f) : RingLaw (f.onOrder k op) := by
  unfold Feed.onOrder
  split
  · exact hop _ h
  · exact h

/-! ### The grip -/

theorem ringLaw_loseCarry (g : Gantry) (k : Option Carry) {f : Feed} (h : RingLaw f) :
    RingLaw ((f.setCarry g none).onOrder k Feed.lostPanel) :=
  ringLaw_onOrder ringLaw_lostPanel k (ringLaw_modCtx g _ h)

theorem ringLaw_drop (g : Gantry) {f : Feed} (h : RingLaw f) : RingLaw (f.drop g) :=
  ringLaw_fault g .drop (ringLaw_loseCarry g _ h)

theorem ringLaw_unexpectedGrip (g : Gantry) {f : Feed} (h : RingLaw f) : RingLaw (f.unexpectedGrip g) :=
  ringLaw_fault g .unexpectedGrip (ringLaw_modCtx g _ h)

theorem ringLaw_gripCheck (g : Gantry) {f : Feed} (h : RingLaw f) : RingLaw (f.gripCheck g) := by
  unfold Feed.gripCheck
  split_ifs
  · exact h
  · exact ringLaw_drop g h
  · exact ringLaw_unexpectedGrip g h
  · exact h

theorem ringLaw_vacFallen (g : Gantry) {f : Feed} (h : RingLaw f) : RingLaw (f.vacFallen g) := by
  unfold Feed.vacFallen
  split_ifs
  · exact h
  · exact ringLaw_drop g h
  · exact h

theorem ringLaw_vacRisen (g : Gantry) {f : Feed} (h : RingLaw f) : RingLaw (f.vacRisen g) := by
  unfold Feed.vacRisen
  split_ifs
  · exact h
  · exact h
  · exact ringLaw_unexpectedGrip g h

/-! ### Stations -/

theorem ringLaw_blockStation (st : StationId) (why : StReason) {f : Feed} (h : RingLaw f) :
    RingLaw (f.blockStation st why) :=
  ringLaw_raise _ _ _ (ringLaw_modStation st _ h)

theorem ringLaw_faultStation (st : StationId) (why : StReason) {f : Feed} (h : RingLaw f) :
    RingLaw (f.faultStation st why) :=
  ringLaw_raise _ _ _ (ringLaw_modStation st _ h)

theorem ringLaw_landed (st : StationId) {f : Feed} (h : RingLaw f) : RingLaw (f.landed st) := by
  unfold Feed.landed
  split
  · exact ringLaw_modStation st _ h
  · exact h

theorem ringLaw_returned (st : StationId) {f : Feed} (h : RingLaw f) : RingLaw (f.returned st) := by
  unfold Feed.returned
  split_ifs
  · exact ringLaw_blockStation st _ h
  · exact ringLaw_modStation st _ h
  · exact h

theorem ringLaw_deliveryUnknown (st : StationId) {f : Feed} (h : RingLaw f) : RingLaw (f.deliveryUnknown st) := by
  unfold Feed.deliveryUnknown
  split
  · exact ringLaw_faultStation st _ h
  · exact h

theorem ringLaw_atStation {op : StationId → Feed → Feed} (hop : ∀ st {f : Feed}, RingLaw f → RingLaw (op st f))
    (m : Flight) {f : Feed} (h : RingLaw f) : RingLaw (atStation m op f) := by
  unfold atStation
  split
  · exact hop _ h
  · exact h

theorem ringLaw_reported (st : StationId) (saw : Saw) {f : Feed} (h : RingLaw f) : RingLaw (f.reported st saw) := by
  unfold Feed.reported
  split
  case h_1 =>
    split
    · exact ringLaw_modStation st _ h
    · exact h
  case h_2 =>
    split
    · exact ringLaw_modStation st _ h
    · exact h
  case h_3 =>
    split
    · exact h
    · exact ringLaw_faultStation st _ h

theorem ringLaw_report (st : StationId) (r : ReportRec) {f : Feed} (h : RingLaw f) : RingLaw (report st r f).1 := by
  unfold report
  split
  · exact h
  · exact ringLaw_reported st _ (ringLaw_modStation st _ h)

theorem ringLaw_presentRisen (st : StationId) {f : Feed} (h : RingLaw f) : RingLaw (f.presentRisen st) := by
  unfold Feed.presentRisen
  split
  case h_1 | h_2 => exact ringLaw_blockStation st _ h
  case h_3 | h_4 => exact ringLaw_modStation st _ h
  all_goals exact h

theorem ringLaw_presentFallen (st : StationId) {f : Feed} (h : RingLaw f) : RingLaw (f.presentFallen st) := by
  unfold Feed.presentFallen
  split
  case h_4 => exact ringLaw_modStation st _ h
  case h_5 => exact ringLaw_blockStation st _ h
  case h_6 =>
    split
    · exact ringLaw_modStation st _ h
    · exact h
  all_goals exact h

/-! ### Completions -/

theorem ringLaw_closeStation (m : Flight) {f : Feed} (h : RingLaw f) : RingLaw (closeStation m f) := by
  unfold closeStation
  split
  case h_1 => exact ringLaw_deliveryUnknown _ h
  all_goals exact h

theorem ringLaw_closeOrder (m : Flight) (vac : Bool) (k : Option Carry) {f : Feed} (h : RingLaw f) :
    RingLaw (closeOrder m vac k f) := by
  unfold closeOrder
  split
  · exact h
  · split
    · exact h
    · exact ringLaw_lowerOut _ h
    · exact ringLaw_onOrder ringLaw_lostPanel k h
    · exact ringLaw_onOrder ringLaw_lowerOut k h

theorem ringLaw_closeFlight (g : Gantry) (m : Flight) {f : Feed} (h : RingLaw f) : RingLaw (f.closeFlight g m) :=
  ringLaw_modCtx g _ (ringLaw_closeOrder m _ _ (ringLaw_closeStation m h))

theorem ringLaw_settlePick (m : Flight) (e : Ending) (vac : Bool) {f : Feed} (h : RingLaw f) :
    RingLaw (settlePick m e vac f) := by
  unfold settlePick
  split_ifs
  · exact h
  · exact ringLaw_mispicked _ h
  · exact ringLaw_lowerOut _ h

theorem ringLaw_settlePlace (g : Gantry) (m : Flight) (e : Ending) (vac : Bool) (k : Option Carry) {f : Feed}
    (h : RingLaw f) : RingLaw (settlePlace g m e vac k f) := by
  unfold settlePlace
  split_ifs
  · exact ringLaw_atStation ringLaw_returned m (ringLaw_atStation (fun _ _ => ringLaw_raise _ _ _) m h)
  · exact ringLaw_atStation ringLaw_landed m (ringLaw_onOrder ringLaw_placedPanel k h)
  · exact ringLaw_atStation ringLaw_returned m h

theorem ringLaw_settleReject (g : Gantry) (e : Ending) (vac : Bool) (k : Option Carry) {f : Feed} (h : RingLaw f) :
    RingLaw (settleReject g e vac k f) := by
  unfold settleReject
  split_ifs
  · exact ringLaw_raise _ _ _ h
  · exact ringLaw_count _ (ringLaw_onOrder ringLaw_lowerOut k h)
  · exact h

theorem ringLaw_settleEffects (g : Gantry) (m : Flight) (e : Ending) (vac : Bool) (k : Option Carry) {f : Feed}
    (h : RingLaw f) : RingLaw (settleEffects g m e vac k f) := by
  unfold settleEffects
  split
  · exact h
  · exact ringLaw_settlePick m e vac h
  · exact ringLaw_settlePlace g m e vac k h
  · exact ringLaw_settleReject g e vac k h

theorem ringLaw_endFaulted (g : Gantry) (m : Flight) (r : CompletionRec) (why : HaltReason) {f : Feed}
    (h : RingLaw f) : RingLaw (f.endFaulted g m r why) :=
  ringLaw_modCtx g _ (ringLaw_closeFlight g m (ringLaw_haltCtx g why none (ringLaw_modCtx g _ h)))

theorem ringLaw_endLate (g : Gantry) (m : Flight) (r : CompletionRec) {f : Feed} (h : RingLaw f) :
    RingLaw (f.endLate g m r) :=
  ringLaw_modCtx g _ (ringLaw_closeFlight g m (ringLaw_modCtx g _ h))

theorem ringLaw_endClean (g : Gantry) (m : Flight) (r : CompletionRec) {f : Feed} (h : RingLaw f) :
    RingLaw (f.endClean g m r) := by
  unfold Feed.endClean
  split
  · exact ringLaw_gripCheck g (ringLaw_modCtx g _ (ringLaw_settleEffects g m _ _ _ (ringLaw_setRail _ h)))
  · exact ringLaw_endFaulted g m r .span h

/-- A completion taken keeps the law of the ring (R54). -/
theorem ringLaw_complete (g : Gantry) (r : CompletionRec) {f : Feed} (h : RingLaw f) : RingLaw (complete g r f).1 := by
  unfold complete
  split
  case h_1 =>
    unfold completeMoving
    split
    · exact ringLaw_endClean g _ r h
    · exact ringLaw_endClean g _ r h
    · exact ringLaw_endFaulted g _ r _ h
    · exact ringLaw_haltCtx g _ _ h
    · exact ringLaw_haltCtx g _ _ h
  case h_2 =>
    unfold completeIdle
    split
    · exact h
    · exact ringLaw_haltCtx g _ _ h
  case h_3 =>
    unfold completeHalted
    split
    · exact ringLaw_endLate g _ r h
    · exact ringLaw_furtherFault g _ h

/-! ### Judged reads -/

theorem ringLaw_acceptOrder (g : Gantry) (k : MoveKind) (o : Option Order) {f : Feed} (h : RingLaw f) :
    RingLaw (f.acceptOrder g k o) := by
  unfold Feed.acceptOrder
  split
  case h_1 => exact ringLaw_modOrder _ _ h
  case h_2 => exact ringLaw_congr rfl rfl rfl rfl h
  all_goals exact h

theorem ringLaw_accept (g : Gantry) (k : MoveKind) (r : MoveRec) (run : Span) (t : Rail) {f : Feed} (h : RingLaw f) :
    RingLaw (f.accept g k r run t) :=
  have accepted := ringLaw_acceptOrder g k (moveOrder g k r f) (ringLaw_modCtx g _ (ringLaw_setRail t h))
  ringLaw_congr rfl rfl rfl rfl accepted

theorem ringLaw_countWait (g : Gantry) (i : WaitId) {f : Feed} (h : RingLaw f) : RingLaw (f.countWait g i) := by
  unfold Feed.countWait
  split
  · exact ringLaw_modCtx g _ h
  · exact ringLaw_modCtx g _ (ringLaw_setRail _ h)

theorem ringLaw_starve (g : Gantry) (kind : Blocking) {f : Feed} (h : RingLaw f) : RingLaw (f.starve g kind) := by
  have reserved := ringLaw_setRail (reserve f.rail g) h
  unfold Feed.starve
  split
  · simp only
    split
    · exact ringLaw_raise _ _ _ reserved
    · exact reserved
  · exact h

theorem ringLaw_mutualTest (g : Gantry) (kind : Blocking) {f : Feed} (h : RingLaw f) :
    RingLaw (f.mutualTest g kind) := by
  unfold Feed.mutualTest
  split
  · exact ringLaw_congr rfl rfl rfl rfl (ringLaw_raise .mutualBlock g.val kind.code h)
  · exact h

theorem ringLaw_railWait (g : Gantry) (i : WaitId) (kind : Blocking) {f : Feed} (h : RingLaw f) :
    RingLaw (f.railWait g i kind) :=
  ringLaw_mutualTest g kind (ringLaw_starve g kind (ringLaw_countWait g i h))

theorem ringLaw_judgeIdle (g : Gantry) (r : MoveRec) {f : Feed} (h : RingLaw f) : RingLaw (judgeIdle g r f).1 := by
  unfold judgeIdle
  split
  · exact ringLaw_haltCtx g _ _ h
  · split
    · exact ringLaw_haltCtx g _ _ h
    · split
      · exact h
      · unfold claimMove
        split
        · exact ringLaw_accept g _ r _ _ h
        · exact ringLaw_railWait g _ _ h

theorem ringLaw_judgeGood (g : Gantry) (r : MoveRec) {f : Feed} (h : RingLaw f) : RingLaw (judgeGood g r f).1 := by
  unfold judgeGood
  split_ifs
  iterate 5 exact h
  exact ringLaw_judgeIdle g r h

/-- The judging of a read keeps the law of the ring (R29). -/
theorem ringLaw_judge (g : Gantry) (data : Option (List Word)) {f : Feed} (h : RingLaw f) :
    RingLaw (judge g data f).1 := by
  unfold judge
  split
  · unfold judgeBad
    split
    · exact ringLaw_fault g .memory (ringLaw_modCtx g _ h)
    · exact ringLaw_modCtx g _ h
  · exact ringLaw_judgeGood g _ (ringLaw_modCtx g _ h)

/-! ### Control commands -/

theorem ringLaw_settleHalt (g : Gantry) (b : Option Nat) {f : Feed} (h : RingLaw f) : RingLaw (f.settleHalt g b) := by
  have fallen : RingLaw (f.settleFall g) := by
    unfold Feed.settleFall
    split
    · exact ringLaw_setVac g _ h
    · exact h
  have closed {f : Feed} (h : RingLaw f) : RingLaw (f.settleClose g) := by
    unfold Feed.settleClose
    split
    · exact ringLaw_closeFlight g _ h
    · exact h
  have placed {f : Feed} (h : RingLaw f) : RingLaw (f.settlePos g b) := by
    unfold Feed.settlePos
    split
    · exact ringLaw_modCtx g _ h
    · exact h
  have gripped {f : Feed} (h : RingLaw f) : RingLaw (f.settleGrip g) := by
    unfold Feed.settleGrip
    split_ifs
    · exact h
    · exact ringLaw_loseCarry g _ h
    · exact ringLaw_modCtx g _ h
    · exact h
  exact gripped (placed (closed fallen))

theorem ringLaw_clearHalt (a : Nat) (b : Option Nat) {f : Feed} (h : RingLaw f) : RingLaw (clearHalt a b f).1 := by
  unfold clearHalt clearHaltOf
  split_ifs with ha
  · split
    · exact h
    · have settled := ringLaw_settleHalt ⟨a, ha.1⟩ b h
      unfold Feed.reseatHalt
      split
      · exact ringLaw_raise _ _ _ (ringLaw_modCtx _ _ (ringLaw_setRail _ settled))
      · exact settled
      · exact settled
  · exact h

theorem ringLaw_orphan (g : Gantry) (why : OrphanWhy) {f : Feed} (h : RingLaw f) : RingLaw (f.orphan g why) :=
  ringLaw_raise _ _ _ (ringLaw_modCtx g _ h)

theorem ringLaw_cancelOrder (a : Nat) {f : Feed} (h : RingLaw f) : RingLaw (cancelOrder a f).1 := by
  have orphaned (g : Gantry) {f : Feed} (h : RingLaw f) : RingLaw (f.orphanIf g a) := by
    unfold Feed.orphanIf
    split
    · exact ringLaw_orphan g _ h
    · exact h
  unfold cancelOrder
  split_ifs
  · exact h
  · exact h
  · exact ringLaw_setOrders _ (orphaned 1 (orphaned 0 h))

theorem ringLaw_unblockStation (a : Nat) {f : Feed} (h : RingLaw f) : RingLaw (unblockStation a f).1 := by
  unfold unblockStation
  split
  · split
    · exact ringLaw_modStation _ _ h
    · exact h
  · exact h

/-- An acknowledgement that is not refused names a slot up to P (R161). -/
theorem ringLaw_ackEvents (a : Nat) {f : Feed} (h : RingLaw f) : RingLaw (ackEvents a f).1 := by
  unfold ackEvents
  split_ifs with hslot hbeyond
  · exact h
  · exact h
  · exact ringLaw_acked (Nat.not_le.mp hslot) (Nat.not_lt.mp hbeyond) h

theorem ringLaw_dropOrders {f : Feed} (h : RingLaw f) : RingLaw f.dropOrders := by
  have orphaned (g : Gantry) {f : Feed} (h : RingLaw f) : RingLaw (f.orphanAny g) := by
    unfold Feed.orphanAny
    split
    · exact ringLaw_orphan g _ h
    · exact h
  exact orphaned 1 (orphaned 0 (ringLaw_setOrders [] h))

theorem ringLaw_resetFeed {f : Feed} (h : RingLaw f) : RingLaw (resetFeed f) := by
  have station (st : StationId) {f : Feed} (h : RingLaw f) : RingLaw (f.resetStation st) := by
    unfold Feed.resetStation
    split
    · exact ringLaw_faultStation st _ h
    · exact h
  have halted (g : Gantry) {f : Feed} (h : RingLaw f) : RingLaw (f.resetCtx g) := by
    unfold Feed.resetCtx
    split
    · exact ringLaw_haltCtx g _ _ h
    · exact h
  have stations {f : Feed} (h : RingLaw f) : RingLaw f.resetStations := by
    rw [resetStations_eq]
    exact station 5 (station 4 (station 3 (station 2 (station 1 (station 0 h)))))
  exact halted 1 (halted 0 (stations (ringLaw_dropOrders h)))

/-! ### Record writes -/

theorem ringLaw_memFault (n : Nat) (a : Area) {f : Feed} (h : RingLaw f) : RingLaw (f.memFault n a) :=
  ringLaw_raise _ _ _ (ringLaw_count _ h)

theorem ringLaw_endNotice (st : StationId) (faulted : Bool) {f : Feed} (h : RingLaw f) :
    RingLaw (f.endNotice st faulted) := by
  have left : RingLaw { f with notices := f.notices.tail } := ringLaw_congr rfl rfl rfl rfl h
  simp only [Feed.endNotice]
  split
  · exact ringLaw_memFault _ _ left
  · exact left

/-- The event at the front of the queue leaves it, written or lost (R160). -/
theorem ringLaw_endEvent (faulted : Bool) {f : Feed} (h : RingLaw f) : RingLaw (f.endEvent faulted) := by
  unfold Feed.endEvent
  split
  case h_1 => exact h
  case h_2 hevents =>
    split
    · have dropped := ringLaw_dropped hevents h
      simp only
      split
      · exact ringLaw_count _ dropped
      · exact ringLaw_memFault _ _ dropped
    · exact ringLaw_written hevents h

/-! ### Every act -/

/-- Entering RUN raises SETTINGS_LOADED in the empty ring of the new settings (R177). -/
theorem ringLaw_enterRun (c : Settings) (vacRaw : Vector Bool 2) (presentRaw : Vector Bool 6) (f : Feed) :
    RingLaw (f.enterRun c vacRaw presentRaw) :=
  ringLaw_raise _ _ _ (ringLaw_of_empty rfl rfl rfl)

/-- Every act on the feed side keeps the law of the ring. -/
theorem ringLaw_of_act {f f' : Feed} (act : FeedAct f f') (h : RingLaw f) : RingLaw f' := by
  cases act with
  | count c => exact ringLaw_count c h
  | raise code n d => exact ringLaw_raise code n d h
  | clearFlags | tick => exact ringLaw_congr (f := f) rfl rfl rfl rfl h
  | enlist => exact ringLaw_setOrders _ h
  | complete g r => exact ringLaw_complete g r h
  | report st r => exact ringLaw_report st r h
  | judge g data => exact ringLaw_judge g data h
  | clearHalt a b => exact ringLaw_clearHalt a b h
  | cancelOrder a => exact ringLaw_cancelOrder a h
  | unblockStation a => exact ringLaw_unblockStation a h
  | ackEvents a => exact ringLaw_ackEvents a h
  | resetFeed => exact ringLaw_resetFeed h
  | reload | enterLocked | powerOn | reset => exact ringLaw_of_empty rfl rfl rfl
  | endNotice st faulted => exact ringLaw_endNotice st faulted h
  | endEvent faulted => exact ringLaw_endEvent faulted h
  | enterRun => exact ringLaw_enterRun ..
  | vacRaw g => exact ringLaw_setVac g _ h
  | vacFall g => exact ringLaw_vacFallen g (ringLaw_setVac g _ h)
  | vacRise g => exact ringLaw_vacRisen g (ringLaw_setVac g _ h)
  | presentRaw st => exact ringLaw_modStation st _ h
  | presentRise st => exact ringLaw_presentRisen st (ringLaw_modStation st _ h)
  | presentFall st => exact ringLaw_presentFallen st (ringLaw_modStation st _ h)
  | moveTimeout g => exact ringLaw_haltCtx g .moveTimeout none h
  | landingTimeout st => exact ringLaw_faultStation st _ h
  | guardExpiry st => exact ringLaw_modStation st _ h

/-- Settles O57: a step is a chain of acts on the feed side, each of which keeps the law of the ring. -/
theorem everyStepKeepsTheRingLaw : Obligations.EveryStepKeepsTheRingLaw := fun _ _ hs hstep =>
  kept_of_step RingLaw (fun _ _ => ringLaw_of_act) hs hstep

end Sys2Proof.Machine
end

section
/-! SUPPORT. Events, counters and flags (R160, R166, R167), and the mailbox by the part state, with the acknowledgement of
events (R156, R157, R161). -/

namespace Sys2Proof.Machine

/-! ### Events and counters (R160, R166, R167) -/

/-- Outside RUN an event is neither queued nor counted (R160). -/
theorem raise_outside_run {f : Feed} (c : EventCode) (n d : Nat) (hp : f.part ≠ .run) : f.raise c n d = f := if_pos hp

/-- At a full ring or queue an event is lost, and counted (R160). -/
theorem raise_of_full {f : Feed} (c : EventCode) (n d : Nat) (hp : f.part = .run)
    (hfull : f.ringCap - 1 ≤ f.occupancy ∨ Config.queueCapacity ≤ f.events.length) :
    f.raise c n d = f.count .eventsLost :=
  (if_neg (not_not.mpr hp)).trans (if_pos hfull)

/-- Settles O48: the three outcomes of a raised event, and each counter's raise. -/
theorem eventsAndCounters : Obligations.EventsAndCounters := fun _ code subject detail =>
  ⟨raise_outside_run code subject detail, raise_of_full code subject detail, raise_of_room code subject detail,
    rfl, rfl, rfl, rfl, rfl, rfl, rfl, rfl⟩

/-! ### The mailbox in START and LOCKED (R157) -/

/-- In START every control command is retried (R157). -/
theorem exec_control_start {s : State} {tag : MasterTag} {addr : Addr} (hown : OwnerControl s tag addr)
    (hstart : s.feed.part = .start) (code : BitVec 8) (r : ControlRec) :
    done (s.present (controlTxn tag addr code r)) = .next (s.answers .retry s.feed) := by
  have hcommand : command (.ofWords (controlWords code r)) s.unanswered.feed = none := by
    unfold command
    rw [State.unanswered_feed, hstart]
  rw [State.present_control hown]
  unfold State.takeControl
  rw [hcommand]
  rfl

/-- In LOCKED every command but RELOAD_SETTINGS has the result LOCKED and no effect (R157). -/
theorem commandLocked_of_ne {c : ControlFields} (h : c.command ≠ .reloadSettings) (f : Feed) :
    commandLocked c f = (f, .locked) := by
  unfold commandLocked
  cases hc : c.command with
  | reloadSettings => exact absurd hc h
  | clearHalt | cancelOrder | unblockStation | ackEvents | resetFeed | unknown => rfl

theorem exec_control_locked {s : State} {tag : MasterTag} {addr : Addr} (hown : OwnerControl s tag addr)
    (hlocked : s.feed.part = .locked) {code : BitVec 8} (hcode : Command.ofCode code.toNat ≠ .reloadSettings)
    (r : ControlRec) :
    done (s.present (controlTxn tag addr code r)) = .next (s.controls s.feed tag addr code r .locked) := by
  refine exec_control hown ?_ hcode
  unfold command
  rw [hlocked, ControlFields.ofWords_control]
  exact congrArg some (commandLocked_of_ne hcode s.feed)

/-! ### Unknown commands (R157) -/

/-- A code outside 1 to 6 is no command (R156). -/
theorem ofCode_unknown {code : BitVec 8} (h : code = 0 ∨ 6 < code.toNat) : Command.ofCode code.toNat = .unknown := by
  have hcode : code.toNat = 0 ∨ 6 < code.toNat := h.imp_left fun h0 => by rw [h0]; rfl
  unfold Command.ofCode
  iterate 6 rw [if_neg (by omega)]

theorem exec_unknownCommand_run {s : State} {tag : MasterTag} {addr : Addr} {code : BitVec 8} (r : ControlRec)
    (hown : OwnerControl s tag addr) (hrun : s.feed.part = .run) (hcode : code = 0 ∨ 6 < code.toNat) :
    exec (.unknownCommand tag addr code r) s = .next (s.controls s.feed tag addr code r .unknown) := by
  have hunknown := ofCode_unknown hcode
  refine exec_control hown ?_ (by rw [hunknown]; decide)
  rw [command_run hrun, ControlFields.ofWords_control, hunknown]
  rfl

/-- Settles O44: the retry in START, the result LOCKED, and the result UNKNOWN in RUN. -/
theorem controlCommandsByPartState : Obligations.ControlCommandsByPartState := by
  intro s tag addr r code hown
  refine ⟨fun hstart => ?start, fun hlocked => ?locked, exec_unknownCommand_run r hown⟩
  case start =>
    have retried (code : BitVec 8) := exec_control_start hown hstart code r
    exact ⟨retried 1, retried 2, retried 3, retried 4, retried 5, retried 6, retried code⟩
  case locked =>
    have stamped {code : BitVec 8} (hcode : Command.ofCode code.toNat ≠ .reloadSettings) :=
      exec_control_locked hown hlocked hcode r
    exact ⟨stamped (by decide), stamped (by decide), stamped (by decide), stamped (by decide), stamped (by decide),
      fun hcode => stamped (by rw [ofCode_unknown hcode]; decide)⟩

/-! ### ACK_EVENTS (R161) -/

/-- ACK_EVENTS in RUN is its row of the table, on the index in operand A (R161). -/
theorem exec_ackEvents {s : State} {tag : MasterTag} {addr : Addr} {r : ControlRec} {f : Feed} {res : Result}
    (hown : OwnerControl s tag addr) (hrun : s.feed.part = .run) (h : ackEvents r.opA.toNat s.feed = (f, res)) :
    exec (.ackEvents tag addr r) s = .next (s.controls f tag addr 4 r res) := by
  refine exec_control hown ?_ (by decide)
  rw [command_run hrun, ControlFields.ofWords_control, ← h]
  rfl

theorem ackEvents_refused {a : Nat} {f : Feed}
    (h : f.ringCap ≤ a ∨ f.unacked < (a + f.ringCap - f.cons) % f.ringCap) : ackEvents a f = (f, .badIndex) := by
  unfold ackEvents
  split_ifs with hslot hbeyond
  · rfl
  · rfl
  · exact absurd h (not_or.mpr ⟨hslot, hbeyond⟩)

theorem ackEvents_taken {a : Nat} {f : Feed} (hslot : a < f.ringCap)
    (hwritten : (a + f.ringCap - f.cons) % f.ringCap ≤ f.unacked) :
    ackEvents a f = ({ f with cons := a }, .done) :=
  (if_neg (Nat.not_le.mpr hslot)).trans (if_neg (Nat.not_lt.mpr hwritten))

/-- An acknowledgement lowers the written and unacknowledged events by the slots from the old Q up to the new (R161). -/
theorem unacked_acked {a : Nat} {f : Feed} (hprod : f.prod < f.ringCap) (hcons : f.cons < f.ringCap)
    (hslot : a < f.ringCap) (hwritten : (a + f.ringCap - f.cons) % f.ringCap ≤ f.unacked) :
    ({ f with cons := a } : Feed).unacked = f.unacked - (a + f.ringCap - f.cons) % f.ringCap := by
  have hold := Feed.unacked_eq hprod hcons
  have hnew := Feed.unacked_eq (f := { f with cons := a }) hprod hslot
  have hahead := Feed.unacked_eq (f := { f with prod := a }) hslot hcons
  simp only [Feed.unacked, Feed.ringCap] at *
  split_ifs at * <;> omega

/-- Settles O45: the refusal, and the index taken with the fall of the occupancy. -/
theorem ackEventsInRun : Obligations.AckEventsInRun := by
  intro s tag addr r i c ahead written hown hrun
  exact ⟨fun hbad => exec_ackEvents hown hrun (ackEvents_refused hbad), fun hslot hwritten =>
    ⟨exec_ackEvents hown hrun (ackEvents_taken hslot hwritten),
      fun hprod hcons => unacked_acked hprod hcons hslot hwritten⟩⟩

end Sys2Proof.Machine
end

section
/-! SUPPORT. The words of the status record and their fields (R164, R165, sections 11.3 and 11.4), and the status read
(R164, R167). -/

namespace Sys2Proof.Machine

/-! ### Fields of a packed word -/

/-- The fields of a word follow one another from bit 0 upward and end within its 32 bits. -/
def fieldsFit : List (Nat × Nat × Nat) → Bool
  | [] => true
  | x :: rest => decide (x.1 + x.2.1 ≤ 32) && rest.all (fun y => decide (x.1 + x.2.1 ≤ y.1)) && fieldsFit rest

theorem fieldsFit_cons {x : Nat × Nat × Nat} {rest : List (Nat × Nat × Nat)} (h : fieldsFit (x :: rest) = true) :
    x.1 + x.2.1 ≤ 32 ∧ (∀ y ∈ rest, x.1 + x.2.1 ≤ y.1) ∧ fieldsFit rest = true := by
  simpa [fieldsFit, and_assoc] using h

/-- Fields set above a field leave it as it is. -/
theorem field_foldl_above {lo n : Nat} {fields : List (Nat × Nat × Nat)} (hfit : fieldsFit fields = true)
    (habove : ∀ y ∈ fields, lo + n ≤ y.1) (w : Word) :
    field (fields.foldl (fun w f => setField w f.1 f.2.1 f.2.2) w) lo n = field w lo n := by
  induction fields generalizing w with
  | nil => rfl
  | cons x rest ih =>
    obtain ⟨h32, -, hrest⟩ := fieldsFit_cons hfit
    obtain ⟨hx, hys⟩ := List.forall_mem_cons.mp habove
    rw [List.foldl_cons, ih hrest hys, field_setField_apart w x.2.2 h32 (.inl hx)]

/-- A field of a packed word holds its value, where that is within the field's width. -/
theorem field_pack {fields : List (Nat × Nat × Nat)} {lo n v : Nat} (i : Nat) (hi : fields[i]? = some (lo, n, v))
    (hfit : fieldsFit fields = true) (hv : v < 2 ^ n) : field (pack fields) lo n = v := by
  unfold pack
  generalize (0 : Word) = w
  induction fields generalizing i w with
  | nil => cases hi
  | cons x rest ih =>
    obtain ⟨h32, habove, hrest⟩ := fieldsFit_cons hfit
    rw [List.foldl_cons]
    cases i with
    | zero =>
      obtain rfl : x = (lo, n, v) := Option.some.inj hi
      rw [field_foldl_above hrest habove, field_setField_same w v h32, Nat.mod_eq_of_lt hv]
    | succ i => exact ih i hi hrest _

/-- Part of a field, read by itself. -/
theorem field_within (w : Word) (lo : Nat) {n d m : Nat} (h : d + m ≤ n) :
    field w (lo + d) m = (field w lo n >>> d) % 2 ^ m := by
  apply Nat.eq_of_testBit_eq
  intro i
  rw [testBit_field, Nat.testBit_mod_two_pow, Nat.testBit_shiftRight, testBit_field]
  by_cases hi : i < m
  · have hin : d + i < n := by omega
    simp [hi, hin, Nat.add_assoc]
  · simp [hi]

@[simp] theorem wordAt_cons_zero (w : Word) (ws : List Word) : wordAt (w :: ws) 0 = w := rfl

@[simp] theorem wordAt_cons_succ (w : Word) (ws : List Word) (k : Nat) : wordAt (w :: ws) (k + 1) = wordAt ws k := rfl

/-- The words of a list from one word on. -/
theorem take_drop_eq_wordAt {ws : List Word} {k n : Nat} (h : k + n ≤ ws.length) :
    (ws.drop k).take n = (List.range n).map fun i => wordAt ws (k + i) := by
  refine List.ext_getElem (by simp; omega) fun i hi _ => ?_
  have hi : i < n := by simp at hi; omega
  rw [List.getElem_take, List.getElem_drop, List.getElem_map, List.getElem_range, wordAt,
    List.getD_eq_getElem _ _ (by omega)]

/-! ### The widths of the codes (section 11.3) -/

theorem bitNat_lt (b : Bool) : bitNat b < 2 ^ 1 := by cases b <;> decide

theorem PartState.code_lt (x : PartState) : x.code < 2 ^ 2 := by cases x <;> decide

theorem LoadFault.code_lt (x : LoadFault) : x.code < 2 ^ 4 := by cases x <;> decide

theorem CtxState.code_lt (x : CtxState) : x.code < 2 ^ 4 := by cases x <;> decide

theorem HaltReason.code_lt (x : HaltReason) : x.code < 2 ^ 8 := by cases x <;> decide

theorem BadMove.code_lt (x : BadMove) : x.code < 2 ^ 4 := by cases x <;> decide

theorem CarryKind.code_lt (x : CarryKind) : x.code < 2 ^ 2 := by cases x <;> decide

theorem MoveKind.code_lt (x : MoveKind) : x.code < 2 ^ 4 := by cases x <;> decide

theorem StState.code_lt (x : StState) : x.code < 2 ^ 4 := by cases x <;> decide

theorem StReason.code_lt (x : StReason) : x.code < 2 ^ 4 := by cases x <;> decide

theorem Saw.code_lt (x : Saw) : x.code < 2 ^ 2 := by cases x <;> decide

theorem CellState.code_lt (x : CellState) : x.code < 2 ^ 3 := by
  cases x with
  | free => decide
  | held g | reserved g => have := g.isLt; simp only [CellState.code]; omega

theorem Flags.code_lt (k : Flags) : k.code < 2 ^ 6 := by
  obtain ⟨a, b, c, d, e, f⟩ := k
  revert a b c d e f
  decide

/-- What an absent or present field shows is within a width that all its values keep to. -/
theorem getD_lt {α : Type} {o : Option α} {default n : Nat} {value : α → Nat} (hd : default < n)
    (h : ∀ a, o = some a → value a < n) : (o.map value).getD default < n := by
  cases o with
  | none => exact hd
  | some a => exact h a rfl

/-- The field of an absent value shows its default. -/
theorem shown_of_none {α : Type} {o : Option α} {default x : Nat} {value : α → Nat}
    (hx : x = (o.map value).getD default) (h : o = none) : x = default := by rw [hx, h]; rfl

/-- The field of a present value shows it. -/
theorem shown_of_some {α : Type} {o : Option α} {a : α} {default x : Nat} {value : α → Nat}
    (hx : x = (o.map value).getD default) (h : o = some a) : x = value a := by rw [hx, h]; rfl

theorem forall_of_none {α : Type} {o : Option α} {P : α → Prop} (h : o = none) : ∀ a, o = some a → P a :=
  fun _ ha => by cases h.symm.trans ha

theorem forall_of_some {α : Type} {o : Option α} {a : α} {P : α → Prop} (h : o = some a) (ha : P a) :
    ∀ b, o = some b → P b :=
  fun _ hb => Option.some.inj (h.symm.trans hb) ▸ ha

/-! ### The words of a context and of a station -/

section Context

variable {state : Nat} {run : Option Span} {c : Ctx}

theorem ctxWords_state (h : state < 16) : field (wordAt (ctxWords state run c) 0) 0 4 = state := by
  simp only [ctxWords, wordAt_cons_zero]
  exact field_pack 0 rfl rfl h

theorem ctxWords_reason : field (wordAt (ctxWords state run c) 0) 4 8 = (c.halt.map (·.reason.code)).getD 0 := by
  simp only [ctxWords, wordAt_cons_zero]
  exact field_pack 1 rfl rfl (getD_lt (by decide) fun h _ => h.reason.code_lt)

theorem ctxWords_sub :
    field (wordAt (ctxWords state run c) 0) 12 4 = ((c.halt.bind (·.sub)).map BadMove.code).getD 0 := by
  simp only [ctxWords, wordAt_cons_zero]
  exact field_pack 2 rfl rfl (getD_lt (by decide) fun b _ => b.code_lt)

theorem ctxWords_further (h : ∀ x, c.halt = some x → x.further ≤ 255) :
    field (wordAt (ctxWords state run c) 0) 16 8 = (c.halt.map (·.further)).getD 0 := by
  simp only [ctxWords, wordAt_cons_zero]
  exact field_pack 3 rfl rfl (getD_lt (by decide) fun x hx => Nat.lt_succ_of_le (h x hx))

theorem ctxWords_waits (h : c.wait.count ≤ 255) :
    field (wordAt (ctxWords state run c) 0) 24 8 = c.wait.count := by
  simp only [ctxWords, wordAt_cons_zero]
  exact field_pack 4 rfl rfl (Nat.lt_succ_of_le h)

theorem ctxWords_pos (h : ∀ p, c.pos = some p → p < 2 ^ 24) :
    field (wordAt (ctxWords state run c) 1) 0 24 = c.pos.getD unknownPos := by
  have hlt := getD_lt (o := c.pos) (default := unknownPos) (value := id) (by decide) h
  simp only [ctxWords, wordAt_cons_succ, wordAt_cons_zero]
  exact field_pack 0 rfl rfl (by simpa using hlt)

theorem ctxWords_carryKind :
    field (wordAt (ctxWords state run c) 1) 24 2 = (c.carry.map (·.kind.code)).getD 0 := by
  simp only [ctxWords, wordAt_cons_succ, wordAt_cons_zero]
  exact field_pack 1 rfl rfl (getD_lt (by decide) fun y _ => y.kind.code_lt)

theorem ctxWords_expected : field (wordAt (ctxWords state run c) 1) 26 1 = bitNat c.expected := by
  simp only [ctxWords, wordAt_cons_succ, wordAt_cons_zero]
  exact field_pack 2 rfl rfl (bitNat_lt _)

theorem ctxWords_moveKind :
    field (wordAt (ctxWords state run c) 1) 28 4 = (c.flight.map (·.kind.code)).getD 0 := by
  simp only [ctxWords, wordAt_cons_succ, wordAt_cons_zero]
  exact field_pack 3 rfl rfl (getD_lt (by decide) fun m _ => m.kind.code_lt)

theorem ctxWords_carryTag (h : ∀ y, c.carry = some y → y.tag < 4096) :
    field (wordAt (ctxWords state run c) 2) 0 12 = (c.carry.map (·.tag)).getD 0 := by
  simp only [ctxWords, wordAt_cons_succ, wordAt_cons_zero]
  exact field_pack 0 rfl rfl (getD_lt (by decide) h)

theorem ctxWords_carryLen (h : ∀ y, c.carry = some y → y.len < 4096) :
    field (wordAt (ctxWords state run c) 2) 12 12 = (c.carry.map (·.len)).getD 0 := by
  simp only [ctxWords, wordAt_cons_succ, wordAt_cons_zero]
  exact field_pack 1 rfl rfl (getD_lt (by decide) h)

theorem ctxWords_west (h : ∀ r, run = some r → r.west < 64) :
    field (wordAt (ctxWords state run c) 2) 24 8 = runCell run (·.west) := by
  simp only [ctxWords, wordAt_cons_succ, wordAt_cons_zero]
  exact field_pack 2 rfl rfl (getD_lt (by decide) fun r hr => (h r hr).trans (by decide))

theorem ctxWords_target (h : ∀ m, c.flight = some m → m.target < 2 ^ 24) :
    field (wordAt (ctxWords state run c) 3) 0 24 = (c.flight.map (·.target)).getD 0 := by
  simp only [ctxWords, wordAt_cons_succ, wordAt_cons_zero]
  exact field_pack 0 rfl rfl (getD_lt (by decide) h)

theorem ctxWords_east (h : ∀ r, run = some r → r.east < 64) :
    field (wordAt (ctxWords state run c) 3) 24 8 = runCell run (·.east) := by
  simp only [ctxWords, wordAt_cons_succ, wordAt_cons_zero]
  exact field_pack 1 rfl rfl (getD_lt (by decide) fun r hr => (h r hr).trans (by decide))

end Context

/-! ### The words of the snapshot (section 11.4) -/

theorem length_snapshot (s : State) : (snapshot s).length = 32 := rfl

theorem wordAt_snapshot_zero (s : State) : wordAt (snapshot s) 0 = statusWord0 s := rfl

theorem wordAt_snapshot_ctx (s : State) (g : Gantry) {i : Nat} (hi : i < 4) :
    wordAt (snapshot s) (2 + 4 * g.val + i) =
      wordAt (ctxWords (shownCtxState s.feed g) (heldRun s.feed.rail g) (shownCtx s.feed g)) i := by
  rcases gantry_cases g with rfl | rfl <;> interval_cases i <;> rfl

theorem wordAt_snapshot_station (s : State) (st : StationId) :
    wordAt (snapshot s) (10 + st.val) = stationWord (shownStationState s.feed st) (shownStation s.feed st) := by
  fin_cases st <;> rfl

theorem wordAt_snapshot_counts (s : State) {i : Nat} (hi : i < 6) :
    wordAt (snapshot s) (19 + i) = wordAt (statusCounts s.feed) i := by
  interval_cases i <;> rfl

theorem wordAt_snapshot_rail (s : State) {k : Nat} (hk : k < 7) :
    wordAt (snapshot s) (25 + k) = railWord s.feed.rail k := by
  interval_cases k <;> rfl

/-- The tag of a station's head (R94). -/
theorem snapshot_head (s : State) (st : StationId) (h : headTag s.feed st < 2 ^ 12) :
    field (wordAt (snapshot s) (16 + st.val / 2)) (16 * (st.val % 2)) 12 = headTag s.feed st := by
  have word (j : Fin 3) : wordAt (snapshot s) (16 + j.val) =
      pack [(0, 12, headTag s.feed (Fin.ofNat 6 (2 * j))), (16, 12, headTag s.feed (Fin.ofNat 6 (2 * j + 1)))] := by
    fin_cases j <;> rfl
  fin_cases st
  · exact (congrArg (field · 0 12) (word 0)).trans (field_pack 0 rfl rfl h)
  · exact (congrArg (field · 16 12) (word 0)).trans (field_pack 1 rfl rfl h)
  · exact (congrArg (field · 0 12) (word 1)).trans (field_pack 0 rfl rfl h)
  · exact (congrArg (field · 16 12) (word 1)).trans (field_pack 1 rfl rfl h)
  · exact (congrArg (field · 0 12) (word 2)).trans (field_pack 0 rfl rfl h)
  · exact (congrArg (field · 16 12) (word 2)).trans (field_pack 1 rfl rfl h)

/-- A cell of the rail map (R19). -/
theorem snapshot_cell (s : State) {i : Nat} (hi : i < 64) :
    field (wordAt (snapshot s) (25 + i / 10)) (3 * (i % 10)) 3 = (cellAt s.feed.rail i).code := by
  have hj : i % 10 < 10 := Nat.mod_lt i (by decide)
  rw [wordAt_snapshot_rail s (by omega)]
  refine field_pack (i % 10) ?_ rfl (CellState.code_lt _)
  rw [List.getElem?_map, List.getElem?_range hj, Option.map_some, Nat.div_add_mod]

/-! ### The fields of the snapshot, group by group -/

section Fields

variable {s : State}

/-- The first word: the part's own fields (R165). -/
theorem snapshot_part (s : State) : field (wordAt (snapshot s) 0) 0 2 = s.feed.part.code := by
  rw [wordAt_snapshot_zero, statusWord0]
  exact field_pack 0 rfl rfl (PartState.code_lt _)

theorem snapshot_loadFault (s : State) : field (wordAt (snapshot s) 0) 4 4 = s.feed.loadFault.code := by
  rw [wordAt_snapshot_zero, statusWord0]
  exact field_pack 1 rfl rfl (LoadFault.code_lt _)

theorem snapshot_lcTag (s : State) : field (wordAt (snapshot s) 0) 8 3 = s.lcTag.toNat := by
  rw [wordAt_snapshot_zero, statusWord0]
  exact field_pack 2 rfl rfl s.lcTag.isLt

theorem snapshot_hold (s : State) : field (wordAt (snapshot s) 0) 12 1 = bitNat s.holdOut := by
  rw [wordAt_snapshot_zero, statusWord0]
  exact field_pack 3 rfl rfl (bitNat_lt _)

theorem snapshot_alert (s : State) : field (wordAt (snapshot s) 0) 13 1 = bitNat s.alertOut := by
  rw [wordAt_snapshot_zero, statusWord0]
  exact field_pack 4 rfl rfl (bitNat_lt _)

theorem snapshot_orders (h : s.feed.orders.length ≤ 32) :
    field (wordAt (snapshot s) 0) 16 6 = s.feed.orders.length := by
  rw [wordAt_snapshot_zero, statusWord0]
  exact field_pack 5 rfl rfl (h.trans_lt (by decide))

/-- A field of the ring indices, counters and flags, words 19 to 24 (R166, R167). -/
theorem snapshot_counts {i lo n v : Nat} {fields : List (Nat × Nat × Nat)} (p : Nat) (hi : i < 6)
    (hword : wordAt (statusCounts s.feed) i = pack fields) (hp : fields[p]? = some (lo, n, v))
    (hfit : fieldsFit fields = true) (hv : v < 2 ^ n) : field (wordAt (snapshot s) (19 + i)) lo n = v := by
  rw [wordAt_snapshot_counts s hi, hword]
  exact field_pack p hp hfit hv

/-- A counter that keeps to its limit (R166). -/
theorem snapshot_counter {i lo v : Nat} {fields : List (Nat × Nat × Nat)} (p : Nat) (hi : i < 6)
    (hword : wordAt (statusCounts s.feed) i = pack fields) (hp : fields[p]? = some (lo, 16, v))
    (hfit : fieldsFit fields = true) (hv : v ≤ 65535) : field (wordAt (snapshot s) (19 + i)) lo 16 = v :=
  snapshot_counts p hi hword hp hfit (Nat.lt_succ_of_le hv)

/-- A latched flag, one bit of the flags field (R167). -/
theorem snapshot_flag (s : State) {d : Nat} (hd : d < 6) :
    field (wordAt (snapshot s) 24) (16 + d) 1 = (s.feed.flags.code >>> d) % 2 := by
  have hflags : field (wordAt (snapshot s) 24) 16 6 = s.feed.flags.code :=
    snapshot_counts (i := 5) 1 (by decide) rfl rfl rfl s.feed.flags.code_lt
  rw [field_within _ 16 (n := 6) (by omega), hflags, pow_one]

/-- The six flags as the bits of their field (section 11.4, word 24). -/
theorem Flags.code_bits (k : Flags) :
    (k.code >>> 0) % 2 = bitNat k.addrParity ∧ (k.code >>> 1) % 2 = bitNat k.refused ∧
      (k.code >>> 2) % 2 = bitNat k.passedParity ∧ (k.code >>> 3) % 2 = bitNat k.latency ∧
      (k.code >>> 4) % 2 = bitNat k.memFault ∧ (k.code >>> 5) % 2 = bitNat k.eventLoss := by
  obtain ⟨a, b, c, d, e, f⟩ := k
  revert a b c d e f
  decide

/-- A context of an enabled gantry in RUN (R165). -/
theorem snapshot_ctx_run {g : Gantry} (hrun : s.feed.part = .run) (hon : s.feed.gantryOn g = true) {i : Nat}
    (hi : i < 4) : wordAt (snapshot s) (2 + 4 * g.val + i) =
      wordAt (ctxWords s.feed.ctx[g].state.code (heldRun s.feed.rail g) s.feed.ctx[g]) i := by
  have hoff : ¬(s.feed.part = .run ∧ s.feed.gantryOn g = false) := fun h => by simp [hon] at h
  rw [wordAt_snapshot_ctx s g hi, shownCtxState, if_neg hoff, shownCtx, if_pos hrun]

/-- A context in START and LOCKED, where the record shows power-on values (R165). -/
theorem snapshot_ctx_off {g : Gantry} (hrun : s.feed.part ≠ .run) {i : Nat} (hi : i < 4) :
    wordAt (snapshot s) (2 + 4 * g.val + i) =
      wordAt (ctxWords CtxState.halted.code (heldRun s.feed.rail g) (.powerOn s.feed.time)) i := by
  rw [wordAt_snapshot_ctx s g hi, shownCtxState, if_neg fun h => hrun h.1, shownCtx, if_neg hrun]
  rfl

/-- A station that is enabled in RUN (R119). -/
theorem snapshot_station_run {st : StationId} (hrun : s.feed.part = .run) (hon : s.feed.stationOn st = true) :
    wordAt (snapshot s) (10 + st.val) = stationWord s.feed.stations[st].state.code s.feed.stations[st] := by
  have hoff : ¬(s.feed.part = .run ∧ s.feed.stationOn st = false) := fun h => by simp [hon] at h
  rw [wordAt_snapshot_station, shownStationState, if_neg hoff, shownStation, if_pos hrun]

/-- A station in START and LOCKED, where the record shows power-on values (R165). -/
theorem snapshot_station_off (st : StationId) (hrun : s.feed.part ≠ .run) :
    wordAt (snapshot s) (10 + st.val) = 0x100001 := by
  rw [wordAt_snapshot_station, shownStationState, if_neg fun h => hrun h.1, shownStation, if_neg hrun]
  rfl

/-- The state field of a disabled gantry (R25). -/
theorem snapshot_ctx_disabled {g : Gantry} (hrun : s.feed.part = .run) (hoff : s.feed.gantryOn g = false) :
    field (wordAt (snapshot s) (2 + 4 * g.val)) 0 4 = 15 := by
  rw [← Nat.add_zero (2 + 4 * g.val), wordAt_snapshot_ctx s g (by decide), shownCtxState, if_pos ⟨hrun, hoff⟩]
  exact ctxWords_state (by decide)

/-- The state field of a disabled station (R98). -/
theorem snapshot_station_disabled {st : StationId} (hrun : s.feed.part = .run) (hoff : s.feed.stationOn st = false) :
    field (wordAt (snapshot s) (10 + st.val)) 0 4 = 15 := by
  rw [wordAt_snapshot_station, shownStationState, if_pos ⟨hrun, hoff⟩]
  exact field_pack 0 rfl rfl (by decide)

/-- The run a gantry holds, in every part state (R20). -/
theorem snapshot_heldRun {g : Gantry} {r : Span} (h : HoldsRun s.feed.rail g r) :
    field (wordAt (snapshot s) (2 + 4 * g.val + 2)) 24 8 = r.west ∧
      field (wordAt (snapshot s) (2 + 4 * g.val + 3)) 24 8 = r.east := by
  obtain ⟨hle, heast, -⟩ := id h
  rw [wordAt_snapshot_ctx s g (by decide), wordAt_snapshot_ctx s g (by decide), heldRun_of_holdsRun h]
  exact ⟨ctxWords_west fun x hx => Option.some.inj hx ▸ hle.trans_lt heast,
    ctxWords_east fun x hx => Option.some.inj hx ▸ heast⟩

theorem snapshot_heldNone {g : Gantry} (h : HoldsNone s.feed.rail g) :
    field (wordAt (snapshot s) (2 + 4 * g.val + 2)) 24 8 = 255 ∧
      field (wordAt (snapshot s) (2 + 4 * g.val + 3)) 24 8 = 255 := by
  rw [wordAt_snapshot_ctx s g (by decide), wordAt_snapshot_ctx s g (by decide), heldRun_of_holdsNone h]
  exact ⟨ctxWords_west nofun, ctxWords_east nofun⟩

end Fields

/-! ### The status read (R164, R167) -/

/-- When a status read clears the six flags (R167). -/
theorem clearsFlags_iff (s : State) (tag : MasterTag) (k n : Nat) :
    clearsFlags s tag k n = true ↔ tag = s.lcTag ∧ k ≤ 24 ∧ 24 < k + n := decide_eq_true_iff

/-- A status read at word k of the record (R164). -/
theorem exec_statusRead {s : State} {tag : MasterTag} {addr : Addr} {k n : Nat} (hfree : PortFree s) (hpos : 1 ≤ n)
    (hmax : n ≤ 16) (hfit : k + n ≤ 32) (haddr : addr.toNat = s.anchor + 256 + 4 * k) :
    exec (.statusRead tag addr n) s = .next (settle { s with
      feed := if clearsFlags s tag k n = true then { s.feed with flags := .clear } else s.feed
      bus := { s.bus with
        answer := some ⟨.done, (List.range n).map fun i => PWord.good (wordAt (snapshot s) (k + i))⟩ } }) := by
  have hin : Inside s addr n (some .status) := by
    have hanchor : s.anchor % 2 ^ 20 = 0 := Nat.mul_mod_left _ _
    have htop := s.anchor_le
    exact ⟨hpos, hmax, by omega, by omega, fun i hi => State.areaAt_status (by omega) (by omega)⟩
  have hroute : s.route (readTxn tag addr n) = .status := State.route_inside (t := readTxn tag addr n) rfl hin
  have hindex : s.unanswered.statusIndex (readTxn tag addr n) = k := by
    change (addr.toNat - (s.anchor + 256)) / 4 = k
    omega
  have hwords : outWords (statusWords s.unanswered k n) =
      (List.range n).map fun i => PWord.good (wordAt (snapshot s) (k + i)) := by
    rw [statusWords, take_drop_eq_wordAt (by rwa [length_snapshot]), outWords, List.map_map]
    rfl
  have hread : exec (.statusRead tag addr n) s = done (s.unanswered.readStatus (readTxn tag addr n)) :=
    exec_forwardRaw_free hfree hroute
  have hlen : (readTxn tag addr n).op.len = n := rfl
  rw [hread, ← hwords]
  simp only [State.readStatus, hindex, hlen]
  have hclears : clearsFlags s.unanswered (readTxn tag addr n).tag k n = clearsFlags s tag k n := rfl
  rw [hclears]
  split <;> rfl

/-- Settles O47: the read, the fields of the record group by group, and the codes. -/
theorem statusReadAnswersOneSnapshotOfTheState : Obligations.StatusReadAnswersOneSnapshotOfTheState := by
  refine ⟨?read, ?fields, rfl, rfl, rfl, rfl, rfl, rfl, rfl, rfl, rfl, rfl, rfl⟩
  case read =>
    intro s tag addr k n words result hfree hpos hmax hfit haddr
    have hread := exec_statusRead (tag := tag) hfree hpos hmax hfit haddr
    refine ⟨length_snapshot s, fun htag hle hlt => ?_, fun hno => ?_⟩
    · rw [hread, if_pos ((clearsFlags_iff ..).mpr ⟨htag, hle, hlt⟩)]
      rfl
    · have hkept : ¬clearsFlags s tag k n = true := by
        rw [clearsFlags_iff]
        rintro ⟨htag, hle, hlt⟩
        exact hno.elim (fun hne => hne htag) fun hout => hout.elim (Nat.not_lt.mpr hle) (Nat.not_le.mpr hlt)
      rw [hread, if_neg hkept]
  case fields =>
    intro s g st f n c x w k j
    refine ⟨⟨snapshot_part s, snapshot_loadFault s, snapshot_lcTag s, snapshot_hold s, snapshot_alert s,
        snapshot_orders, rfl, fun i => snapshot_cell s⟩, ?counts,
      ⟨fun r => snapshot_heldRun, snapshot_heldNone, fun h => ?noHead, fun o h hlt => ?head⟩, fun hrun hon => ?ctx,
      fun hrun hon => ?station, fun hrun => ⟨snapshot_ctx_disabled hrun, snapshot_station_disabled hrun⟩,
      fun hoff => ?off⟩
    case counts =>
      obtain ⟨hflag0, hflag1, hflag2, hflag3, hflag4, hflag5⟩ := f.flags.code_bits
      exact ⟨snapshot_counts (i := 0) 0 (by decide) rfl rfl rfl, snapshot_counts (i := 0) 1 (by decide) rfl rfl rfl,
        snapshot_counter (i := 1) 0 (by decide) rfl rfl rfl,
        snapshot_counter (i := 1) 1 (by decide) rfl rfl rfl,
        snapshot_counter (i := 2) 0 (by decide) rfl rfl rfl,
        snapshot_counter (i := 2) 1 (by decide) rfl rfl rfl,
        snapshot_counter (i := 3) 0 (by decide) rfl rfl rfl,
        snapshot_counter (i := 3) 1 (by decide) rfl rfl rfl,
        snapshot_counter (i := 4) 0 (by decide) rfl rfl rfl,
        snapshot_counter (i := 4) 1 (by decide) rfl rfl rfl,
        snapshot_counter (i := 5) 0 (by decide) rfl rfl rfl,
        (snapshot_flag s (d := 0) (by decide)).trans hflag0, (snapshot_flag s (d := 1) (by decide)).trans hflag1,
        (snapshot_flag s (d := 2) (by decide)).trans hflag2, (snapshot_flag s (d := 3) (by decide)).trans hflag3,
        (snapshot_flag s (d := 4) (by decide)).trans hflag4, (snapshot_flag s (d := 5) (by decide)).trans hflag5⟩
    case noHead =>
      have hhead : headTag f st = 0 := by rw [headTag, h]; rfl
      exact (snapshot_head s st (hhead ▸ by decide)).trans hhead
    case head =>
      have hhead : headTag f st = o.tag := by rw [headTag, h]; rfl
      exact (snapshot_head s st (hhead ▸ hlt)).trans hhead
    case ctx =>
      let words := ctxWords c.state.code (heldRun f.rail g) c
      have h0 : wordAt (snapshot s) k = wordAt words 0 := snapshot_ctx_run (i := 0) hrun hon (by decide)
      have h1 : wordAt (snapshot s) (k + 1) = wordAt words 1 := snapshot_ctx_run hrun hon (by decide)
      have h2 : wordAt (snapshot s) (k + 2) = wordAt words 2 := snapshot_ctx_run hrun hon (by decide)
      have h3 : wordAt (snapshot s) (k + 3) = wordAt words 3 := snapshot_ctx_run hrun hon (by decide)
      simp only [w, h0, h1, h2, h3]
      exact ⟨ctxWords_state c.state.code_lt,
        fun h => ⟨shown_of_none ctxWords_reason h, shown_of_none ctxWords_sub (by rw [h]; rfl),
          shown_of_none (ctxWords_further (forall_of_none h)) h⟩,
        fun y h => ⟨shown_of_some (a := y) ctxWords_reason h,
          fun hsub => shown_of_none ctxWords_sub (by rw [h]; exact hsub),
          fun b hsub => shown_of_some ctxWords_sub (by rw [h]; exact hsub),
          fun hle => shown_of_some (ctxWords_further (forall_of_some h hle)) h⟩,
        ctxWords_waits, fun h => (ctxWords_pos (forall_of_none h)).trans (by rw [h]; rfl),
        fun p hlt h => (ctxWords_pos (forall_of_some h hlt)).trans (by rw [h]; rfl), ctxWords_expected,
        fun h => ⟨shown_of_none ctxWords_carryKind h, shown_of_none (ctxWords_carryTag (forall_of_none h)) h,
          shown_of_none (ctxWords_carryLen (forall_of_none h)) h⟩,
        fun y h => ⟨shown_of_some (a := y) ctxWords_carryKind h,
          fun hlt => shown_of_some (ctxWords_carryTag (forall_of_some h hlt)) h,
          fun hlt => shown_of_some (ctxWords_carryLen (forall_of_some h hlt)) h⟩,
        fun h => ⟨shown_of_none ctxWords_moveKind h, shown_of_none (ctxWords_target (forall_of_none h)) h⟩,
        fun m h => ⟨shown_of_some (a := m) ctxWords_moveKind h,
          fun hlt => shown_of_some (ctxWords_target (forall_of_some h hlt)) h⟩⟩
    case station =>
      have hword : wordAt (snapshot s) j = stationWord x.state.code x := snapshot_station_run hrun hon
      have hreason : field (stationWord x.state.code x) 4 4 = (x.reason.map StReason.code).getD 0 :=
        field_pack 1 rfl rfl (getD_lt (by decide) fun y _ => y.code_lt)
      simp only [w, hword]
      exact ⟨field_pack 0 rfl rfl x.state.code_lt, shown_of_none hreason, fun y => shown_of_some hreason,
        fun hlt => field_pack 2 rfl rfl hlt, field_pack 3 rfl rfl x.saw.code_lt, field_pack 4 rfl rfl (bitNat_lt _)⟩
    case off =>
      let words := ctxWords CtxState.halted.code (heldRun f.rail g) (.powerOn f.time)
      have h0 : wordAt (snapshot s) k = wordAt words 0 := snapshot_ctx_off (i := 0) hoff (by decide)
      have h1 : wordAt (snapshot s) (k + 1) = wordAt words 1 := snapshot_ctx_off hoff (by decide)
      have h2 : wordAt (snapshot s) (k + 2) = wordAt words 2 := snapshot_ctx_off hoff (by decide)
      have h3 : wordAt (snapshot s) (k + 3) = wordAt words 3 := snapshot_ctx_off hoff (by decide)
      have hstate : wordAt words 0 = pack [(0, 4, 3), (4, 8, 1), (12, 4, 0), (16, 8, 0), (24, 8, 0)] := rfl
      have hpos : wordAt words 1 = pack [(0, 24, 16777215), (24, 2, 0), (26, 1, 0), (28, 4, 0)] := rfl
      simp only [w, h0, h1, h2, h3]
      exact ⟨hstate.trans (by decide), hpos.trans (by decide), ctxWords_carryTag nofun,
        ctxWords_carryLen nofun, ctxWords_target nofun, snapshot_station_off st hoff⟩

end Sys2Proof.Machine
end

section
/-! SUPPORT. RELOAD_SETTINGS: when it is refused BUSY, and what a reload taken leaves (R178, R179; logs 19, 30, 37). -/

namespace Sys2Proof.Machine

/-- An order, a move, a carry or a placement is on its way (R178). -/
def UnderWay (f : Feed) : Prop :=
  f.orders ≠ [] ∨
    (∃ g : Gantry, f.gantryOn g = true ∧ (f.ctx[g].flight.isSome = true ∨ f.ctx[g].carry.isSome = true)) ∨
    ∃ st : StationId, f.stationOn st = true ∧ (f.stations[st].state = .assigned ∨
      f.stations[st].state = .landing ∨ f.stations[st].state = .loaded ∨ f.stations[st].state = .feeding)

theorem reloadBusy_iff (f : Feed) : reloadBusy f = true ↔ UnderWay f := by
  simp only [reloadBusy, UnderWay, ctxBusy, stationBusy, Bool.or_eq_true, Bool.and_eq_true, Bool.not_eq_true',
    List.isEmpty_eq_false_iff, List.any_eq_true, List.mem_finRange, true_and, decide_eq_true_eq, or_assoc, ne_eq]

theorem reloadSettings_busy {f : Feed} (hrun : f.part = .run) (hbusy : UnderWay f) :
    reloadSettings f = (f, .busy) := if_pos ⟨hrun, (reloadBusy_iff f).mpr hbusy⟩

theorem reloadSettings_taken {f : Feed} (h : f.part = .run → ¬UnderWay f) : reloadSettings f = (f.reload, .done) :=
  if_neg fun ⟨hrun, hbusy⟩ => h hrun ((reloadBusy_iff f).mp hbusy)

/-- In RUN and in LOCKED a RELOAD_SETTINGS is decided on by its own row (R157, R178). -/
theorem command_reload {f : Feed} (h : f.part = .run ∨ f.part = .locked) (r : ControlRec) :
    command (.ofWords (controlWords 6 r)) f = some (reloadSettings f) := by
  rw [ControlFields.ofWords_control]
  unfold command
  rcases h with h | h <;> rw [h] <;> rfl

/-- A reload abandons the record writer's operation, and no other (R179). -/
theorem abandonOwn_eq (o : PortOp) :
    o.abandonOwn = if o.kind.isRecord then { o with discard := true } else o := by
  unfold PortOp.abandonOwn
  cases o.kind <;> rfl

/-- A RELOAD_SETTINGS decided on, with the settings reader made ready where it is taken (R156, R179). -/
theorem exec_reloadSettings {s : State} {tag : MasterTag} {addr : Addr} {r : ControlRec} {f : Feed} {res : Result}
    (hown : OwnerControl s tag addr) (hpart : s.feed.part = .run ∨ s.feed.part = .locked)
    (h : reloadSettings s.feed = (f, res)) :
    exec (.reloadSettings tag addr r) s =
      done ((({ s.unanswered with feed := f } : State).startLoad (decide (res = .done))).post
        (controlTxn tag addr 6 r) .control (stampWords (controlWords 6 r) 8 res.code) (decide (res = .done))
        s.boundNow) := by
  have htook : tookReload (.ofWords (controlWords 6 r)) res = decide (res = .done) := by
    rw [ControlFields.ofWords_control]
    exact decide_eq_decide.mpr (and_iff_right rfl)
  have hcommand : command (.ofWords (controlWords 6 r)) s.unanswered.feed = some (f, res) :=
    (command_reload hpart r).trans (congrArg some h)
  refine congrArg done ((State.present_control hown 6 r).trans ?_)
  unfold State.takeControl
  rw [hcommand]
  simp only [htook, State.boundNow_unanswered]

/-- Settles O46: BUSY by the three things under way, and otherwise the reload with its record posted. -/
theorem reloadSettingsInRunAndLocked : Obligations.ReloadSettingsInRunAndLocked := by
  intro s tag addr r cause f busy hown
  refine ⟨fun hrun hbusy => ?busy, fun h => ?taken⟩
  case busy => exact exec_reloadSettings hown (.inl hrun) (reloadSettings_busy hrun hbusy)
  case taken =>
    have hpart : f.part = .run ∨ f.part = .locked := h.imp And.left And.left
    have hfree : f.part = .run → ¬UnderWay f := by
      rcases h with ⟨_, hfree, _⟩ | ⟨hlocked, _⟩
      · exact fun _ => hfree
      · exact fun hrun => absurd (hlocked.symm.trans hrun) (by decide)
    have hcause : (if f.part = .locked then .locked else .reload) = cause := by
      rcases h with ⟨hrun, _, hcause⟩ | ⟨hlocked, hcause⟩
      · rw [hrun, hcause]; rfl
      · rw [hlocked, hcause]; rfl
    have habandon : PortOp.abandonOwn = fun o : PortOp =>
        if o.kind.isRecord then { o with discard := true } else o := funext abandonOwn_eq
    rw [exec_reloadSettings hown hpart (reloadSettings_taken hfree), ← hcause, ← habandon]
    rfl

end Sys2Proof.Machine
end

section
/-! SUPPORT. The settings image: its check bit by bit, its layout, what each test of the validation asks, and their order
(R170, R171, R175, section 11.5; log 24). -/

namespace Sys2Proof.Machine

/-! ### The check (R171) -/

theorem crcBit_eq (c : BitVec 16) :
    crcBit c = if c.getLsbD 15 = true then (c <<< 1) ^^^ 0x1021#16 else c <<< 1 := by
  unfold crcBit
  rw [BitVec.msb_eq_getLsbD_last]

theorem crc16_concat (bs : List Byte) (b : Byte) : crc16 (bs ++ [b]) = crcByte (crc16 bs) b := by
  unfold crc16
  rw [List.foldl_concat]

/-- The check over the digits 1 to 9 (R171). -/
theorem crc16_digits :
    crc16 [0x31#8, 0x32#8, 0x33#8, 0x34#8, 0x35#8, 0x36#8, 0x37#8, 0x38#8, 0x39#8] = 0x29B1#16 := by decide +kernel

/-! ### The layout (section 11.5) -/

theorem field_eq_div (w : Word) (lo n : Nat) : field w lo n = w.toNat / 2 ^ lo % 2 ^ n := by
  rw [field, Nat.shiftRight_eq_div_pow]

theorem crcOk_iff (ws : List Word) :
    crcOk ws = true ↔ (crc16 (bytesOf (ws.take 63))).toNat = field (wordAt ws 63) 0 16 := decide_eq_true_iff

/-! ### The enabled units and the windows (R170) -/

/-- A walk over the indices below a count asks its test of each of them. -/
theorem all_below {n : Nat} (k : Nat) (p : Fin n → Bool) :
    (((List.finRange n).filter fun i => decide (i.val < k)).all p = true) ↔ ∀ i : Fin n, i.val < k → p i = true := by
  simp only [List.all_eq_true, List.mem_filter, List.mem_finRange, true_and, decide_eq_true_eq]

theorem all_gantries (c : Settings) (p : Gantry → Bool) :
    c.gantries.all p = true ↔ ∀ g : Gantry, g.val < c.gantryCount → p g = true := all_below c.gantryCount p

theorem all_stations (c : Settings) (p : StationId → Bool) :
    c.stations.all p = true ↔ ∀ st : StationId, st.val < c.stationCount → p st = true := all_below c.stationCount p

theorem all_stacks (c : Settings) (p : Fin 4 → Bool) :
    c.stacks.all p = true ↔ ∀ k : Fin 4, k.val < c.stackCount → p k = true := all_below c.stackCount p

theorem all_windows (c : Settings) (p : Window → Bool) :
    c.windows.all p = true ↔ ∀ a x, examined c a = some x → p x = true := by
  simp only [List.all_eq_true, mem_windows, forall_exists_index]
  exact forall_comm

theorem all_countedWindows (c : Settings) (p : Window → Bool) :
    c.countedWindows.all p = true ↔ p c.orderWin = true ∧
      ∀ g : Gantry, g.val < c.gantryCount → p c.moveWin[g] = true ∧ p c.completionWin[g] = true := by
  have both (p q : Gantry → Bool) : (∀ g : Gantry, g.val < c.gantryCount → p g = true ∧ q g = true) ↔
      c.gantries.all p = true ∧ c.gantries.all q = true := by
    simp only [all_gantries, forall_and]
  rw [both]
  simp only [Settings.countedWindows, List.cons_append, List.all_cons, List.all_append, List.all_map,
    Bool.and_eq_true, Function.comp_def]

theorem present_iff (x : Window) : x.present = true ↔ x.base ≠ 0 := decide_eq_true_iff

theorem inRange_iff (lo hi n : Nat) : inRange lo hi n = true ↔ lo ≤ n ∧ n ≤ hi := decide_eq_true_iff

/-! ### The tests (R170, R175) -/

theorem formatOk_not (c : Settings) : (!formatOk c) = decide (c.magic ≠ 0x5762 ∨ c.version ≠ 1) := by
  rw [formatOk, ← decide_not]
  exact decide_eq_decide.mpr not_and_or

theorem scalarsOk_iff (c : Settings) : scalarsOk c = true ↔
    (1 ≤ c.gantryCount ∧ c.gantryCount ≤ 2) ∧ (1 ≤ c.stationCount ∧ c.stationCount ≤ 6) ∧
    (1 ≤ c.stackCount ∧ c.stackCount ≤ 4) ∧ (8 ≤ c.cellCount ∧ c.cellCount ≤ 64) ∧
    (100 ≤ c.cellLen ∧ c.cellLen ≤ 2000) ∧ c.railLen ≤ 128000 ∧ (100 ≤ c.halfWidth ∧ c.halfWidth ≤ 1500) ∧
    c.margin ≤ 1000 ∧ (200 ≤ c.cmax ∧ c.cmax ≤ 3200) ∧
    (∀ st : StationId, st.val < c.stationCount → c.guardTime[st] ≤ 10000) ∧
    (100 ≤ c.landingTimeout ∧ c.landingTimeout ≤ 10000) ∧ (1 ≤ c.moveTimeout ∧ c.moveTimeout ≤ 255) ∧
    (1 ≤ c.filterTime ∧ c.filterTime ≤ 50) ∧ (1 ≤ c.threshold ∧ c.threshold ≤ 15) ∧
    (2 ≤ c.bound ∧ c.bound ≤ 64) ∧ (4 ≤ c.ringLog ∧ c.ringLog ≤ 8) := by
  simp only [scalarsOk, Bool.and_eq_true, inRange_iff, all_stations, decide_eq_true_eq, Nat.zero_le, true_and,
    and_assoc]

/-- A slot count is tested whether or not its window is present (log 24). -/
theorem windowsOk_iff (c : Settings) : windowsOk c = true ↔
    (4 ≤ c.orderWin.slots ∧ c.orderWin.slots ≤ 64) ∧
    (∀ g : Gantry, g.val < c.gantryCount → (4 ≤ c.moveWin[g].slots ∧ c.moveWin[g].slots ≤ 64) ∧
      (4 ≤ c.completionWin[g].slots ∧ c.completionWin[g].slots ≤ 64)) ∧
    ∀ a x, examined c a = some x → x.base ≠ 0 → x.base % 16 = 0 ∧ x.base + 16 * x.slots ≤ 2 ^ 24 := by
  have placed (x : Window) : (!x.present || (decide (x.base % 16 = 0) && decide (x.stop ≤ 2 ^ 24))) = true ↔
      (x.base ≠ 0 → x.base % 16 = 0 ∧ x.base + 16 * x.slots ≤ 2 ^ 24) := by
    rw [Bool.or_eq_true, Bool.not_eq_true', Bool.and_eq_true, decide_eq_true_eq, decide_eq_true_eq, Window.stop,
      ← Bool.not_eq_true, ← imp_iff_not_or, present_iff]
  simp only [windowsOk, Bool.and_eq_true, all_countedWindows, inRange_iff, all_windows, placed, and_assoc]

theorem geometryOk_iff (c : Settings) : geometryOk c = true ↔
    (∀ k : Fin 4, k.val < c.stackCount → c.stackPos[k] < c.railLen) ∧
    (∀ st : StationId, st.val < c.stationCount → c.stationPos[st] < c.railLen) ∧ c.bayPos < c.railLen ∧
    ∀ a x, examined c a = some x → x.base ≠ 0 := by
  simp only [geometryOk, Bool.and_eq_true, all_stacks, all_stations, all_windows, present_iff, decide_eq_true_eq,
    and_assoc]

/-- A window is apart from the anchor block of 512 bytes (R170). -/
theorem apart_anchor_iff (anchor : Nat) (x : Window) :
    apart ⟨anchor, 32⟩ x = true ↔ x.base + 16 * x.slots ≤ anchor ∨ anchor + 512 ≤ x.base :=
  (apart_iff _ _).trans or_comm

theorem overlapOk_iff (anchor : Nat) (c : Settings) : overlapOk anchor c = true ↔
    (∀ a b x y, a ≠ b → examined c a = some x → examined c b = some y → x.base ≠ 0 → y.base ≠ 0 →
      x.base + 16 * x.slots ≤ y.base ∨ y.base + 16 * y.slots ≤ x.base) ∧
    ∀ a x, examined c a = some x → x.base ≠ 0 → x.base + 16 * x.slots ≤ anchor ∨ anchor + 512 ≤ x.base := by
  have hanchor : (∀ x ∈ c.windows.filter Window.present, apart ⟨anchor, 32⟩ x = true) ↔
      ∀ a x, examined c a = some x → x.base ≠ 0 → x.base + 16 * x.slots ≤ anchor ∨ anchor + 512 ≤ x.base := by
    simp only [List.mem_filter, mem_windows, present_iff, apart_anchor_iff, and_imp, forall_exists_index]
    exact forall_comm
  rw [overlapOk, allApart_iff, List.pairwise_cons, windows_apart, hanchor, and_comm]
  simp only [apart_iff]

theorem tagsOk_iff (lcTag : MasterTag) (c : Settings) : tagsOk lcTag c = true ↔
    (∀ g : Gantry, g.val < c.gantryCount → c.driveTag[g] ≠ lcTag) ∧
    (∀ g k : Gantry, g.val < c.gantryCount → k.val < c.gantryCount → g ≠ k → c.driveTag[g] ≠ c.driveTag[k]) ∧
    ∀ (st : StationId) (g : Gantry), st.val < c.stationCount → g.val < c.gantryCount →
      c.sawTag[st] ≠ c.driveTag[g] := by
  have hdrives (g k : Gantry) : g = k ∨ c.driveTag[g] ≠ c.driveTag[k] ↔ (g ≠ k → c.driveTag[g] ≠ c.driveTag[k]) :=
    or_iff_not_imp_left
  have hswap {n m : Nat} (p : Fin n → Prop) (q : Fin n → Fin m → Prop) :
      (∀ i, p i → ∀ j, q i j) ↔ ∀ i j, p i → q i j := forall_congr' fun i => forall_comm
  simp only [tagsOk, Bool.and_eq_true, all_gantries, all_stations, decide_eq_true_eq, hdrives, and_assoc, hswap]

/-! ### The order of the tests (R175) -/

theorem validate_eq (anchor : Nat) (lcTag : MasterTag) (ws : List Word) :
    let c := Settings.ofImage ws
    validate anchor lcTag ws = (firstFailing
      [ (!crcOk ws, LoadFault.crc), (!formatOk c, .format), (!rangeOk c, .range), (!geometryOk c, .geometry),
        (!overlapOk anchor c, .overlap), (!tagsOk lcTag c, .tags) ]).getD .none := by
  intro c
  simp only [validate, firstFailing_cons, firstFailing_nil, apply_ite (Option.getD · LoadFault.none),
    Option.getD_some, Option.getD_none, c]

/-- Settles O50: the check, the layout, each test of the validation, and their order. -/
theorem imageValidationTakesTheFirstFailingTest : Obligations.ImageValidationTakesTheFirstFailingTest := by
  refine ⟨⟨crc16_digits, rfl, ?check⟩, ?layout, ?tests, ?order⟩
  case check =>
    intro bs b shift
    have hshift : shift = crcBit := funext fun c => (crcBit_eq c).symm
    rw [crc16_concat, hshift]
    rfl
  case layout =>
    intro ws w tag
    have hw : w = fun k => field (wordAt ws k) := by
      funext k lo n
      exact (field_eq_div (wordAt ws k) lo n).symm
    simp only [tag, hw]
    exact ⟨rfl, crcOk_iff ws⟩
  case tests =>
    intro c anchor lcTag rail gantry station
    refine ⟨?_, geometryOk_iff c, overlapOk_iff anchor c, tagsOk_iff lcTag c⟩
    rw [rangeOk, Bool.and_eq_true, scalarsOk_iff, windowsOk_iff]
    simp only [and_assoc]
    rfl
  case order =>
    intro anchor lcTag ws c
    rw [← formatOk_not]
    exact validate_eq anchor lcTag ws

end Sys2Proof.Machine
end

section
/-! SUPPORT. A step of the queue; and that no command touches what waits in the queue, nor stores in job memory but by
word writes, which keep its canonical form. -/

namespace Sys2Proof.Machine

/-! ### A step of the queue (log 22) -/

theorem step_front (c : Instr) (s : State) (rest : List Instr) :
    step { s with pending := c :: rest } = exec c { s with pending := rest } := rfl

theorem step_idle {s : State} (h : s.pending = []) : step s = .next s := by rw [step, h]

/-- A step idles on an empty queue, or runs the command at the front. -/
theorem step_cases (s : State) : s.pending = [] ∧ step s = .next s ∨
    ∃ c rest, s.pending = c :: rest ∧ step s = exec c { s with pending := rest } := by
  cases h : s.pending with
  | nil => exact .inl ⟨rfl, step_idle h⟩
  | cons c rest => exact .inr ⟨c, rest, rfl, by rw [step, h]⟩

/-! ### Arrivals and grants leave job memory -/

@[simp] theorem State.startLoad_mem (took : Bool) (s : State) : (s.startLoad took).mem = s.mem := by
  unfold State.startLoad; split <;> rfl

@[simp] theorem State.takeOrder_mem (t : Txn) (ws : List Word) (s : State) : (s.takeOrder t ws).mem = s.mem := by
  unfold State.takeOrder; split <;> rfl

@[simp] theorem State.takeControl_mem (t : Txn) (ws : List Word) (s : State) : (s.takeControl t ws).mem = s.mem := by
  unfold State.takeControl; split <;> simp

@[simp] theorem State.takeWrite_mem (t : Txn) (a : Area) (ws : List Word) (s : State) :
    (s.takeWrite t a ws).mem = s.mem := by
  cases a with
  | control => exact State.takeControl_mem t ws s
  | order => exact State.takeOrder_mem t ws s
  | settings | status | move | completion | report | notice | event => rfl

@[simp] theorem State.readStatus_mem (t : Txn) (s : State) : (s.readStatus t).mem = s.mem := by
  simp only [State.readStatus]; split <;> rfl

/-- A transaction that arrives reaches memory by no other way than the port. -/
@[simp] theorem State.arrive_mem (t : Txn) (s : State) : (s.arrive t).mem = s.mem := by
  unfold State.arrive
  cases s.route t with
  | take a ws => exact State.takeWrite_mem t a ws s
  | status => exact State.readStatus_mem t s
  | align a => cases a <;> rfl
  | addrParity | refuse | judged | raw => rfl

@[simp] theorem State.present_mem (t : Txn) (s : State) : (s.present t).mem = s.mem := by
  unfold State.present; split_ifs <;> simp

@[simp] theorem State.arriveNext_mem (s : State) : s.arriveNext.mem = s.mem := by
  unfold State.arriveNext; split <;> simp

@[simp] theorem State.closePosted_mem (faulted : Bool) (s : State) : (s.closePosted faulted).mem = s.mem := by
  unfold State.closePosted
  split
  · rfl
  · cases faulted <;> simp

@[simp] theorem State.grant_mem (s : State) : s.grant.mem = s.mem := by
  unfold State.grant
  split
  · rfl
  · split
    · split <;> rfl
    · rfl

/-! ### What every command keeps -/

/-- From `s` to `t` the queue stands as it was, and job memory keeps its canonical form. -/
structure QueueMemKept (s t : State) : Prop where
  pending : t.pending = s.pending
  memWf : s.mem.wf = true → t.mem.wf = true

theorem QueueMemKept.refl (s : State) : QueueMemKept s s := ⟨rfl, id⟩

theorem QueueMemKept.trans {s t u : State} (h : QueueMemKept s t) (h' : QueueMemKept t u) : QueueMemKept s u :=
  ⟨h'.pending.trans h.pending, h'.memWf ∘ h.memWf⟩

/-- What leaves the queue and memory as they stand keeps them. -/
theorem QueueMemKept.of_eq {s t : State} (hpending : t.pending = s.pending) (hmem : t.mem = s.mem) :
    QueueMemKept s t := ⟨hpending, hmem ▸ id⟩

theorem kept_onFeed (h : Feed → Feed) (s : State) : QueueMemKept s (s.onFeed h) := .of_eq rfl rfl

theorem kept_present (t : Txn) (s : State) : QueueMemKept s (s.present t) :=
  .of_eq (s.present_pending t) (s.present_mem t)

theorem kept_grant (s : State) : QueueMemKept s s.grant := .of_eq s.grant_pending s.grant_mem

theorem kept_closePosted (faulted : Bool) (s : State) : QueueMemKept s (s.closePosted faulted) :=
  .of_eq (s.closePosted_pending faulted) (s.closePosted_mem faulted)

/-! ### Memory's answers (R150) -/

/-- Memory's answer to an operation stores words or nothing. -/
theorem wf_memAfter (o : PortOp) (a : MemAnswer) {s : State} (h : s.mem.wf = true) :
    (s.memAfter o a).mem.wf = true := by
  unfold State.memAfter
  split
  · exact h
  · exact Memory.wf_writeWords _ _ h
  · split
    case h_2 | h_3 | h_4 => exact Memory.wf_writeWords _ _ h
    all_goals exact h

theorem kept_endOp (o : PortOp) (a : MemAnswer) (s : State) : QueueMemKept s (s.endOp o a) :=
  ⟨s.endOp_pending o a, wf_memAfter o a⟩

/-- An answer taken keeps what the acts that follow it keep. -/
theorem kept_answered (p : OpKind → Bool) (a : MemAnswer) {next : PortOp → State → State}
    (h : ∀ o s, QueueMemKept s (next o s)) (s : State) : QueueMemKept s (s.answered p a next) := by
  unfold State.answered
  split
  · exact .refl s
  case _ o _ =>
    split
    · exact kept_endOp o a s
    · exact (kept_endOp o a s).trans (h o _)

theorem kept_afterFetch (a : MemAnswer) (o : PortOp) (s : State) : QueueMemKept s (s.afterFetch a o) := by
  unfold State.afterFetch
  split <;> exact .of_eq rfl rfl

theorem kept_answerRaw (o : PortOp) (a : MemAnswer) (ws : Option (List PWord)) (s : State) :
    QueueMemKept s (s.answerRaw o a ws) := by
  unfold State.answerRaw
  split
  · exact .of_eq rfl rfl
  · split <;> exact .of_eq rfl rfl

theorem kept_afterNotice (a : MemAnswer) (o : PortOp) (s : State) : QueueMemKept s (s.afterNotice a o) := by
  unfold State.afterNotice
  split <;> exact .of_eq rfl rfl

theorem kept_takeBurst (data : Option (List Word)) (s : State) : QueueMemKept s (s.takeBurst data) := by
  unfold State.takeBurst
  split
  · exact .of_eq rfl rfl
  · split
    · exact .of_eq rfl rfl
    · unfold State.endLoad
      split <;> exact .of_eq rfl rfl

/-! ### Bounds that expire (R147 to R152) -/

theorem kept_expireHeld (us : Nat) (s : State) : QueueMemKept s (s.expireHeld us) := by
  unfold State.expireHeld
  split
  · exact .refl s
  · split <;> exact .of_eq rfl rfl

theorem kept_expirePosted (us : Nat) (s : State) : QueueMemKept s (s.expirePosted us) := by
  unfold State.expirePosted
  split
  · exact .refl s
  · split
    · exact .refl s
    · exact .trans (t := s.discardOp (· == .posted)) (.of_eq rfl rfl) (kept_closePosted true _)

theorem kept_expireRecord (us : Nat) (s : State) : QueueMemKept s (s.expireRecord us) := by
  unfold State.expireRecord
  split
  · exact .refl s
  · split
    · exact .refl s
    · split <;> exact .of_eq rfl rfl

theorem kept_expireBurst (us : Nat) (s : State) : QueueMemKept s (s.expireBurst us) := by
  unfold State.expireBurst
  split
  · exact .refl s
  · split <;> exact .of_eq rfl rfl

/-! ### RESET_N (R154) -/

theorem kept_abandonWrite (addr : Nat) (ws : List PWord) (s : State) : QueueMemKept s (s.abandonWrite addr ws) :=
  ⟨rfl, Memory.wf_abandonWords _ _ _ _⟩

theorem kept_abandonOp (s : State) : QueueMemKept s s.abandonOp := by
  unfold State.abandonOp
  split
  · split
    · exact kept_abandonWrite ..
    · exact .refl s
  · exact .refl s

theorem kept_abandonPosted (s : State) : QueueMemKept s s.abandonPosted := by
  unfold State.abandonPosted
  split
  · split
    · exact .refl s
    · exact kept_abandonWrite ..
  · exact .refl s

theorem kept_retryInHand (s : State) : QueueMemKept s s.retryInHand := by
  rw [retryInHand_eq]
  exact .of_eq rfl rfl

/-- What RESET_N ends of the writes in hand is all it does to memory. -/
theorem kept_abandoned (s : State) : QueueMemKept s s.retryInHand.abandonOp.abandonPosted :=
  (kept_retryInHand s).trans ((kept_abandonOp _).trans (kept_abandonPosted _))

/-! ### Commands -/

theorem kept_done {s u t : State} (ht : done u = .next t) (h : QueueMemKept s u) : QueueMemKept s t := by
  obtain rfl : settle u = t := by simpa [done] using ht
  exact ⟨h.pending, h.memWf⟩

/-- A command taken only when it is due, and that changes nothing otherwise (log 10). -/
theorem kept_if_due {p : Prop} [Decidable p] {s u t : State} (ht : (if p then done u else done s) = .next t)
    (h : QueueMemKept s u) : QueueMemKept s t := by
  split at ht
  · exact kept_done ht h
  · exact kept_done ht (.refl s)

/-- A raw level's command, which changes nothing where the level stands already (R69, R100). -/
theorem kept_unless_same {p : Prop} [Decidable p] {s u t : State} (ht : (if p then done s else done u) = .next t)
    (h : QueueMemKept s u) : QueueMemKept s t := by
  split at ht
  · exact kept_done ht (.refl s)
  · exact kept_done ht h

/-- Every command leaves the queue alone and keeps job memory in its canonical form. -/
theorem kept_exec {c : Instr} {s t : State} (h : exec c s = .next t) : QueueMemKept s t := by
  cases c with
  | moveRead | completionWrite | orderWrite | reportWrite | clearHalt | cancelOrder | unblockStation | ackEvents
  | resetFeed | reloadSettings | unknownCommand | statusRead | ownerWritePosted | forwardRaw =>
    exact kept_done h (kept_present _ s)
  | judgeMove a => exact kept_done h (kept_answered _ a (kept_afterFetch a) s)
  | heldMemoryAnswer a => exact kept_done h (kept_answered _ a (fun _ _ => kept_answerRaw ..) s)
  | postedWriteAnswer a => exact kept_done h (kept_answered _ a (fun _ _ => kept_closePosted ..) s)
  | noticeWriteAnswer a => exact kept_done h (kept_answered _ a (kept_afterNotice a) s)
  | eventWriteAnswer a => exact kept_done h (kept_answered _ a (fun _ _ => kept_onFeed ..) s)
  | settingsBurst a => exact kept_done h (kept_answered _ a (fun _ _ => kept_takeBurst ..) s)
  | latencyExpiry us => exact kept_done h (kept_expireHeld us s)
  | postedWriteTimeout us => exact kept_done h (kept_expirePosted us s)
  | recordWriteTimeout us => exact kept_done h (kept_expireRecord us s)
  | settingsBurstTimeout us => exact kept_done h (kept_expireBurst us s)
  | portGrant => exact kept_done h (kept_grant s)
  | resetAssert => exact kept_done h ((kept_abandoned s).trans (.of_eq rfl rfl))
  | resetRelease => exact kept_done h (.of_eq rfl rfl)
  | vacRawChange | presentRawChange => exact kept_unless_same h (.of_eq rfl rfl)
  | vacFall | vacRise | presentRise | presentFall | moveTimeout | landingTimeout | guardExpiry =>
    exact kept_if_due h (kept_onFeed ..)
  | partTimeTick => exact kept_done h (kept_onFeed ..)

/-! ### The statements of the step -/

/-- Settles O1: the step's two equations. -/
theorem stepRunsTheFrontCommand : Obligations.StepRunsTheFrontCommand := ⟨step_front, fun _ => step_idle⟩

/-- Settles O2: every meaning ends in `done`, and what it does before leaves the queue alone. -/
theorem everyCommandAnswersNext : Obligations.EveryCommandAnswersNext := by
  intro c s
  obtain ⟨u, hu⟩ := exec_eq_done c s
  exact ⟨settle u, hu, (kept_exec hu).pending⟩

/-- Settles O60: a step idles or runs one command, and each keeps the canonical form. -/
theorem everyStepKeepsMemoryCanonical : Obligations.EveryStepKeepsMemoryCanonical := by
  intro s t hwf hstep
  rcases step_cases s with ⟨-, hidle⟩ | ⟨c, rest, -, hfront⟩
  · obtain rfl : s = t := by simpa [hidle] using hstep
    exact hwf
  · exact (kept_exec (s := { s with pending := rest }) (hfront ▸ hstep)).memWf hwf

end Sys2Proof.Machine
end
